-- ==== Sys2Proof/Word.lean ====
section
/-! DEFINITION. The plain words of the part: bytes, sixteen-bit link tags, the 32-bit millisecond count of the time
base, and the saturating addition of its counters. -/

namespace Sys2Proof

/-- A byte of a message, a feed-link frame, the spool memory or the flash. -/
abbrev Byte := BitVec 8

/-- A 16-bit word: a feed-link tag (R92) or a check (R210). -/
abbrev Half := BitVec 16

/-- A routing key or filter key (R44), 32 bits compared bit by bit. -/
abbrev Key := BitVec 32

/-- A time of the TB count: milliseconds modulo 2^32 (scope 7.3). -/
abbrev Time := BitVec 32

/-- Addition that stops at `top` (scope 7.5: a counter that saturates stays at its maximum). -/
def satAdd (top a b : Nat) : Nat := min top (a + b)

/-- The largest value of a saturating 32-bit counter (R1.1, R128). -/
def max32 : Nat := 4294967295

/-- The largest value of a press meter (R145). -/
def maxMeter : Nat := 999999999

/-- A number of milliseconds as a TB interval, modulo 2^32. -/
def ms (n : Nat) : Time := BitVec.ofNat 32 n

/-- A number of seconds as a TB interval (scope 7.3: each timer is converted to milliseconds on the TB count). -/
def secs (n : Nat) : Time := BitVec.ofNat 32 (n * 1000)

end Sys2Proof
end

