-- ==== Sys2Proof/Config.lean ====
section
/-! DEFINITION. What the part's manual fixes for every part, and the values it leaves open. An opaque constant is a free
value: nothing about it can be proved. -/

namespace Sys2Proof.Config

/-- Where several engines act inside one step and the manual gives no order among them (R54, R110, R136, R139: "either
may reach it first"), and where a frame goes out at an unstated point of a transmission (R81), the choice is this free
value at the model's own counter `choices`. Log entry 5. -/
opaque freeChoice : Nat → Nat

/-- What a program or an erase that a reset cuts off leaves in a flash byte (R162: "left with some bits set and some
not"). Log entry 6. -/
opaque remnant : Nat → Byte

/-- The revision letter of IDENTIFY (R205), which the manual does not give. Log entry 7. -/
opaque revisionLetter : Byte

/-- The vendor code of IDENTIFY (R205). -/
def vendorCode : Half := 0x0B6A

/-- The part code of IDENTIFY, the six characters PS1608 (R205). -/
def partCode : List Byte := [0x50, 0x53, 0x31, 0x36, 0x30, 0x38]

/-- The largest request or reply body (R196, R205). -/
def maxBody : Nat := 2048

/-- The largest feed-link body length (R70, R210). -/
def maxFeedBody : Nat := 1026

/-- Capacity of the notice queue (R200). -/
def noticeCapacity : Nat := 48

/-- Capacity of the reply queue (R198). -/
def replyCapacity : Nat := 8

/-- Bytes in one extent (R24). -/
def extentBytes : Nat := 65536

/-- The most sheets of one job (R30). -/
def maxSheets : Nat := 4096

/-- The most face bytes in one FACE_DATA chunk (R34). -/
def maxChunk : Nat := 2044

/-- Bytes of face data in one full SHEET_DATA block (R80). -/
def blockBytes : Nat := 1024

/-- The largest balance of an account (R128). -/
def maxBalance : Int := 2000000000

/-- The smallest balance of an account (R128). -/
def minBalance : Int := -10000000

/-- The largest credit limit (R128). -/
def maxLimit : Int := 10000000

/-- The largest sequence a meter record may carry (R150). -/
def maxSequence : Nat := 0xFFFFFFFE

/-- Slots in one flash sector (R150). -/
def sectorSlots : Nat := 256

/-- Bytes in one flash slot (R150). -/
def slotBytes : Nat := 32

/-- Bytes in one flash sector. -/
def sectorBytes : Nat := 8192

/-- What an erased flash byte reads as (R150). -/
def erasedByte : Byte := 0xFF

/-- What a byte of spool memory that nothing has written reads as. Log entry 3 (DESIGN CHOICE, unsafe). -/
def unwrittenByte : Byte := 0

/-- The debounce time of an acknowledge button in milliseconds (R190). -/
def debounceMs : Nat := 20

end Sys2Proof.Config
end

