-- ==== Sys2Proof/Syntax.lean ====
section
/-! DEFINITION. The commands of the part: one constructor of `Instr` for each row of spec/opcode_table.json. A host
request carries its tag and its whole body as bytes (R196, R210); a feed-link frame names its press and its fields
(R210); a deadline or internal event names the press, entry, class, account or zone it happens at. -/

namespace Sys2Proof

/-- The eleven alert kinds, in the order of their codes 0 to 10 (R166). -/
inductive AlertKind where
  | jam | trayEmpty | doorOpen | tonerOut | binFull | mediaMismatch
  | linkSilent | stall | misfeed | protocol | pressRestart
  deriving DecidableEq, Repr

/-- The six kinds a press may name in FAULT and CLEAR, codes 0 to 5 (R70, R210). -/
inductive FaultKind where
  | jam | trayEmpty | doorOpen | tonerOut | binFull | mediaMismatch
  deriving DecidableEq, Repr

/-- The levels of the pins that the part reads at a hardware reset: the two size-select pins (R24) and whether each
acknowledge input is active (R186). -/
structure Pins where
  sizeFirst  : Bool
  sizeSecond : Bool
  ack0 : Bool
  ack1 : Bool
  ack2 : Bool
  ack3 : Bool
  deriving DecidableEq, Repr

/-- One command of the part, a row of spec/opcode_table.json each. -/
inductive Instr where
  /-- POWER_ON_RESET (R208), with the pin levels then. -/
  | powerOnReset (pins : Pins)
  /-- RST_PIN_RESET (R208), with the pin levels then. -/
  | rstPinReset (pins : Pins)
  /-- RESET_HARD (R207): a RESET request whose scope byte is HARD, with the pin levels then. -/
  | resetHard (tag : Byte) (body : List Byte) (pins : Pins)
  /-- RESET_SOFT (R209): a RESET request whose scope byte is SOFT. -/
  | resetSoft (tag : Byte) (body : List Byte)
  /-- IDENTIFY (R205). -/
  | identify (tag : Byte) (body : List Byte)
  /-- STATUS (R206). -/
  | status (tag : Byte) (body : List Byte)
  /-- MODE_SET_RUN (R203): a MODE_SET request whose wanted mode is RUN. -/
  | modeSetRun (tag : Byte) (body : List Byte)
  /-- MODE_SET_QUIESCE (R203, R204): a MODE_SET request whose wanted mode is QUIESCE. -/
  | modeSetQuiesce (tag : Byte) (body : List Byte)
  /-- FETCH_NOTICES (R202). -/
  | fetchNotices (tag : Byte) (body : List Byte)
  /-- ATTN_MASK (R201). -/
  | attnMask (tag : Byte) (body : List Byte)
  /-- ATTN_CLEAR (R201). -/
  | attnClear (tag : Byte) (body : List Byte)
  /-- JOB_OPEN (R3, R4). -/
  | jobOpen (tag : Byte) (body : List Byte)
  /-- SHEET_BEGIN (R30 to R32). -/
  | sheetBegin (tag : Byte) (body : List Byte)
  /-- FACE_DATA (R34, R35). -/
  | faceData (tag : Byte) (body : List Byte)
  /-- JOB_CLOSE (R11, R12). -/
  | jobClose (tag : Byte) (body : List Byte)
  /-- JOB_CANCEL (R13). -/
  | jobCancel (tag : Byte) (body : List Byte)
  /-- JOB_QUERY (R19, R41). -/
  | jobQuery (tag : Byte) (body : List Byte)
  /-- JOB_LIST (R20). -/
  | jobList (tag : Byte) (body : List Byte)
  /-- JOB_RELEASE (R21). -/
  | jobRelease (tag : Byte) (body : List Byte)
  /-- JOB_REQUEUE (R9). -/
  | jobRequeue (tag : Byte) (body : List Byte)
  /-- FILTER_SET (R45). -/
  | filterSet (tag : Byte) (body : List Byte)
  /-- FILTER_ENABLE (R46). -/
  | filterEnable (tag : Byte) (body : List Byte)
  /-- FILTER_QUERY (R47). -/
  | filterQuery (tag : Byte) (body : List Byte)
  /-- CLASS_SET (R57). -/
  | classSet (tag : Byte) (body : List Byte)
  /-- CLASS_QUERY (R58). -/
  | classQuery (tag : Byte) (body : List Byte)
  /-- PRESS_SET (R63, R64). -/
  | pressSet (tag : Byte) (body : List Byte)
  /-- PRESS_ENABLE (R66). -/
  | pressEnable (tag : Byte) (body : List Byte)
  /-- PRESS_DISABLE (R68). -/
  | pressDisable (tag : Byte) (body : List Byte)
  /-- PRESS_QUERY (R69). -/
  | pressQuery (tag : Byte) (body : List Byte)
  /-- PRESS_WRITEOFF (R108). -/
  | pressWriteoff (tag : Byte) (body : List Byte)
  /-- PLAN_SET (R115, R116). -/
  | planSet (tag : Byte) (body : List Byte)
  /-- PLAN_QUERY (R117). -/
  | planQuery (tag : Byte) (body : List Byte)
  /-- ACCOUNT_OPEN (R130). -/
  | accountOpen (tag : Byte) (body : List Byte)
  /-- ACCOUNT_SET (R131). -/
  | accountSet (tag : Byte) (body : List Byte)
  /-- ACCOUNT_ADJUST (R132). -/
  | accountAdjust (tag : Byte) (body : List Byte)
  /-- ACCOUNT_QUERY (R133). -/
  | accountQuery (tag : Byte) (body : List Byte)
  /-- ACCOUNT_PERIOD (R134). -/
  | accountPeriod (tag : Byte) (body : List Byte)
  /-- ACCOUNT_CLOSE (R135). -/
  | accountClose (tag : Byte) (body : List Byte)
  /-- CHARGE_QUOTE (R125, R126). -/
  | chargeQuote (tag : Byte) (body : List Byte)
  /-- METER_READ (R149). -/
  | meterRead (tag : Byte) (body : List Byte)
  /-- METER_SAVE (R159). -/
  | meterSave (tag : Byte) (body : List Byte)
  /-- STORE_QUERY (R160). -/
  | storeQuery (tag : Byte) (body : List Byte)
  /-- ALERT_MODE_SET (R168). -/
  | alertModeSet (tag : Byte) (body : List Byte)
  /-- ALERT_LIST (R181). -/
  | alertList (tag : Byte) (body : List Byte)
  /-- ALERT_CLEAR (R177). -/
  | alertClear (tag : Byte) (body : List Byte)
  /-- ALERT_ACK_PRESS (R192): an ALERT_ACK request whose selector is PRESS. -/
  | alertAckPress (tag : Byte) (body : List Byte)
  /-- ALERT_ACK_ZONE (R191, R192): an ALERT_ACK request whose selector is ZONE. -/
  | alertAckZone (tag : Byte) (body : List Byte)
  /-- ZONE_QUERY (R194). -/
  | zoneQuery (tag : Byte) (body : List Byte)
  /-- UNKNOWN_REQUEST (R197): a request whose type byte names no request. -/
  | unknownRequest (typ tag : Byte) (body : List Byte)
  /-- REQUEST_DROPPED (R197): a request that finds 8 replies waiting. -/
  | requestDropped (typ tag : Byte) (body : List Byte)
  /-- FRAME_BAD_LENGTH (R196), with the length taken. -/
  | frameBadLength (len : Half)
  /-- FRAME_BAD_CHECK (R196): a whole frame, with the check received. -/
  | frameBadCheck (typ tag : Byte) (body : List Byte) (check : Half)
  /-- CS_DEASSERTED (R196): CS# goes high, with the MOSI bytes taken since the last frame of the assertion ended. -/
  | csDeasserted (mosi : List Byte)
  /-- REPLY_CLOCKED_OUT (R198). -/
  | replyClockedOut
  /-- HELLO (R72, R74). -/
  | hello (press : Fin 16) (model : Vector Byte 16) (serial : Vector Byte 12) (caps grades window : Byte)
  /-- WINDOW (R73). -/
  | window (press : Fin 16) (window : Byte)
  /-- TAKEN (R75, R97). -/
  | taken (press : Fin 16) (tag : Half)
  /-- DELIVERED (R75, R98, R99). -/
  | delivered (press : Fin 16) (tag : Half)
  /-- FAULT (R76). -/
  | fault (press : Fin 16) (kind : FaultKind) (detail : Byte) (tags : List Half)
  /-- CLEAR (R77). -/
  | clear (press : Fin 16) (kind : FaultKind) (detail : Byte)
  /-- BEAT (R71). -/
  | beat (press : Fin 16)
  /-- FEED_BAD_CHECK (R70): a frame that fails its check, or whose length is above 1,026. -/
  | feedBadCheck (press : Fin 16) (typ : Byte) (len : Half) (body : List Byte) (check : Half)
  /-- FEED_BAD_FRAME (R70): a frame that passes its check but is malformed. -/
  | feedBadFrame (press : Fin 16) (typ : Byte) (body : List Byte)
  /-- PROBE_TIMER_EXPIRY (R67). -/
  | probeTimerExpiry (press : Fin 16)
  /-- SILENCE_DEADLINE (R78). -/
  | silenceDeadline (press : Fin 16)
  /-- STALL_DEADLINE (R102). -/
  | stallDeadline (press : Fin 16)
  /-- UNBIND_DEADLINE (R105). -/
  | unbindDeadline (press : Fin 16)
  /-- RETRY_DEADLINE (R176), of one entry of one press. -/
  | retryDeadline (press : Fin 16) (kind : AlertKind)
  /-- TRANSMISSION_END (R80, R97). -/
  | transmissionEnd (press : Fin 16)
  /-- QUEUE_EVENT (R55), of one class. -/
  | queueEvent (cls : Fin 8)
  /-- AVAILABILITY_RISE_REPORT (R139), of one account to one press. -/
  | availabilityRiseReport (press : Fin 16) (account : Fin 256)
  /-- ACK_INPUT_CHANGE (R190): the level of a zone's acknowledge input changes to active or inactive. -/
  | ackInputChange (zone : Fin 4) (active : Bool)
  /-- BUTTON_DEADLINE (R190). -/
  | buttonDeadline (zone : Fin 4)
  /-- STORE_WRITE_BEGIN (R153). -/
  | storeWriteBegin
  /-- STORE_WRITE_COMPLETE (R153). -/
  | storeWriteComplete
  /-- STORE_ERASE_BEGIN (R157). -/
  | storeEraseBegin
  /-- STORE_ERASE_END (R157): the flash's own outcome, as the bytes of the sector that the erase left other than 0xFF,
  each with its offset in the sector. -/
  | storeEraseEnd (residue : List (Nat × Byte))
  /-- SCAN_READ_DONE (R162). -/
  | scanReadDone
  /-- SCAN_END (R163). -/
  | scanEnd
  deriving DecidableEq, Repr

end Sys2Proof
end

