-- ==== Sys2Proof/Machine/Codec.lean ====
section
/-! DEFINITION. Bytes on the wire: the field widths of R211, the check of R210, the message frame and its receiver
(R196), and the feed-link frames with their receiver (R70, R210). -/

namespace Sys2Proof

/-- The code of a kind a press may name (R210: the alert kind code 0 to 5). -/
def FaultKind.code : FaultKind → Byte
  | .jam => 0
  | .trayEmpty => 1
  | .doorOpen => 2
  | .tonerOut => 3
  | .binFull => 4
  | .mediaMismatch => 5

end Sys2Proof

namespace Sys2Proof.Machine

/-! ### Fields (R211: high byte first, the width its range needs) -/

/-- A one-byte field. -/
def u8 (n : Nat) : List Byte := [BitVec.ofNat 8 n]

/-- A two-byte field. -/
def u16 (n : Nat) : List Byte := [BitVec.ofNat 8 (n / 256), BitVec.ofNat 8 n]

/-- A three-byte field. -/
def u24 (n : Nat) : List Byte := BitVec.ofNat 8 (n / 65536) :: u16 n

/-- A four-byte field. -/
def u32 (n : Nat) : List Byte := BitVec.ofNat 8 (n / 16777216) :: u24 n

/-- A signed field: four bytes in two's complement (R211). -/
def i32 (n : Int) : List Byte := u32 (BitVec.ofInt 32 n).toNat

/-- A yes-or-no field: 0 for no, and another value for yes (R211). That the part sends 1 for yes is log entry 10 (DESIGN
CHOICE). -/
def flag (b : Bool) : List Byte := if b then [1] else [0]

/-- An optional field: a presence byte, then the field when present (R211). -/
def opt (f : α → List Byte) : Option α → List Byte
  | none => [0]
  | some a => 1 :: f a

/-- A list of varying length whose count cannot pass 255 (R211). -/
def list8 (f : α → List Byte) (l : List α) : List Byte := u8 l.length ++ l.flatMap f

/-- A list of varying length whose count may pass 255 (R211). -/
def list16 (f : α → List Byte) (l : List α) : List Byte := u16 l.length ++ l.flatMap f

/-- A TB time in four bytes. -/
def timeBytes (t : Time) : List Byte := u32 t.toNat

/-- The number of a two-byte field, high byte first. -/
def be16 (a b : Byte) : Nat := a.toNat * 256 + b.toNat

/-- The number of a three-byte field. -/
def be24 (a b c : Byte) : Nat := a.toNat * 65536 + be16 b c

/-- The number of a four-byte field. -/
def be32 (a b c d : Byte) : Nat := a.toNat * 16777216 + be24 b c d

/-- A 16-bit word of two bytes: a tag or a check. -/
def tagOf (a b : Byte) : Half := BitVec.ofNat 16 (be16 a b)

/-- The signed number of a four-byte field. -/
def beInt (a b c d : Byte) : Int := (BitVec.ofNat 32 (be32 a b c d)).toInt

/-- A yes-or-no field read: any value other than 0 is yes (R211). -/
def yes (b : Byte) : Bool := b != 0

/-- The byte of a body at a place, 0 past its end (only read after the length check). -/
def byteAt (l : List Byte) (i : Nat) : Byte := l.getD i 0

/-- The two-byte field of a body at a place. -/
def half (l : List Byte) (i : Nat) : Nat := be16 (byteAt l i) (byteAt l (i + 1))

/-- The four-byte field of a body at a place. -/
def word (l : List Byte) (i : Nat) : Nat :=
  be32 (byteAt l i) (byteAt l (i + 1)) (byteAt l (i + 2)) (byteAt l (i + 3))

/-- A number as an index below `n`, if it is one. -/
def toFin? (n k : Nat) : Option (Fin n) := if h : k < n then some ⟨k, h⟩ else none

/-! ### The check (R210) -/

/-- One bit step of the CRC-16 with polynomial 0x1021, no reflection. -/
def crcShift (c : Half) : Half := if c.msb then (c <<< 1) ^^^ 0x1021 else c <<< 1

/-- One byte step of the check. -/
def crcByte (c : Half) (b : Byte) : Half :=
  let c := c ^^^ (b.setWidth 16 <<< 8)
  crcShift (crcShift (crcShift (crcShift (crcShift (crcShift (crcShift (crcShift c)))))))

/-- The check over a list of bytes in the form of the two links: initial value 0xFFFF, no reflection and no final inversion
(R210). R150 gives a meter record's check the same polynomial and initial value and is silent on reflection and final
inversion; that it has the links' form in these too is log entry 43 (DESIGN CHOICE). -/
def crc16 (l : List Byte) : Half := l.foldl crcByte 0xFFFF

/-- A check as sent, high byte first. -/
def checkBytes (c : Half) : List Byte := u16 c.toNat

/-! ### Message frames (R196, R210) -/

/-- The bytes a message check covers: length, type, tag and body (R210). -/
def messageChecked (typ tag : Byte) (body : List Byte) : List Byte :=
  u16 body.length ++ typ :: tag :: body

/-- A whole message frame. -/
def messageFrame (typ tag : Byte) (body : List Byte) : List Byte :=
  0xB5 :: (messageChecked typ tag body ++ checkBytes (crc16 (messageChecked typ tag body)))

/-- The frame receiver's four states, with what it has taken in each (R196). -/
inductive RxState where
  | hunt
  | length (first : Option Byte)
  | content (len : Nat) (taken : List Byte)
  | check (len : Nat) (taken : List Byte) (first : Option Byte)
  deriving DecidableEq, Repr

/-- What one byte brings about at the frame receiver (R196). -/
inductive RxEvent where
  | nothing
  | badLength (len : Nat)
  | badCheck (typ tag : Byte) (body : List Byte) (check : Half)
  | request (typ tag : Byte) (body : List Byte)
  deriving DecidableEq, Repr

/-- The receiver after its content is whole: type and tag are the first two bytes taken. -/
def rxContentDone (len : Nat) (taken : List Byte) : RxState :=
  if len + 2 ≤ taken.length then .check len taken none else .content len taken

/-- One MOSI byte at the frame receiver (R196). -/
def RxState.feed (r : RxState) (b : Byte) : RxState × RxEvent :=
  match r with
  | .hunt => (if b = 0xB5 then .length none else .hunt, .nothing)
  | .length none => (.length (some b), .nothing)
  | .length (some h) =>
    if Config.maxBody < be16 h b then (.hunt, .badLength (be16 h b))
    else (.content (be16 h b) [], .nothing)
  | .content len taken => (rxContentDone len (taken ++ [b]), .nothing)
  | .check len taken none => (.check len taken (some b), .nothing)
  | .check len taken (some h) =>
    (.hunt,
      match taken with
      | typ :: tag :: body =>
        if be16 h b = (crc16 (u16 len ++ taken)).toNat then .request typ tag body
        else .badCheck typ tag body (tagOf h b)
      | _ => .nothing)

/-- The receiver and the events after a run of MOSI bytes. -/
def RxState.feedAll (r : RxState) : List Byte → RxState × List RxEvent
  | [] => (r, [])
  | b :: l =>
    let (r1, e) := r.feed b
    let (r2, es) := r1.feedAll l
    (r2, if e = .nothing then es else e :: es)

/-- The type and tag bytes of a partial frame, as far as the receiver has reached them (R196). -/
def RxState.reached : RxState → Option Byte × Option Byte
  | .hunt => (none, none)
  | .length _ => (none, none)
  | .content _ taken => (taken[0]?, taken[1]?)
  | .check _ taken _ => (taken[0]?, taken[1]?)

/-- The request types of R210: whether a type byte names a request. -/
def namesRequest (typ : Byte) : Bool :=
  let t := typ.toNat
  (1 ≤ t && t ≤ 0x07) || (0x10 ≤ t && t ≤ 0x18) || (0x20 ≤ t && t ≤ 0x24) || (0x28 ≤ t && t ≤ 0x2C) ||
  (0x30 ≤ t && t ≤ 0x39) || (0x40 ≤ t && t ≤ 0x41) || (0x48 ≤ t && t ≤ 0x4C)

/-! ### Feed-link frames from a press (R70, R210) -/

/-- A well-formed frame from a press. -/
inductive PressFrame where
  | hello (model : Vector Byte 16) (serial : Vector Byte 12) (caps grades window : Byte)
  | window (window : Byte)
  | taken (tag : Half)
  | delivered (tag : Half)
  | fault (kind : FaultKind) (detail : Byte) (tags : List Half)
  | clear (kind : FaultKind) (detail : Byte)
  | beat
  deriving DecidableEq, Repr

/-- The kind a FAULT or CLEAR names, if it is one of the six (R70). -/
def faultKind? (b : Byte) : Option FaultKind :=
  match b.toNat with
  | 0 => some .jam
  | 1 => some .trayEmpty
  | 2 => some .doorOpen
  | 3 => some .tonerOut
  | 4 => some .binFull
  | 5 => some .mediaMismatch
  | _ => none

/-- The tags of a FAULT body, two bytes each; none when a byte is left over. -/
def tagsOf : List Byte → Option (List Half)
  | [] => some []
  | [_] => none
  | a :: b :: l => (tagsOf l).map (tagOf a b :: ·)

/-- `n` bytes of a body as a text field. -/
def textOf (n : Nat) (l : List Byte) : Option (Vector Byte n) :=
  if h : l.length = n then some ⟨l.toArray, by simpa using h⟩ else none

/-- The frame that a type and a body spell, or none when the frame is malformed (R70: an unknown type, a body length
that does not suit its type, more than 8 lost tags, a kind outside the six). -/
def parseFeed (typ : Byte) (body : List Byte) : Option PressFrame :=
  match typ.toNat with
  | 0x81 =>
    match textOf 16 (body.take 16), textOf 12 ((body.drop 16).take 12), body.drop 28 with
    | some model, some serial, [caps, grades, window] => some (.hello model serial caps grades window)
    | _, _, _ => none
  | 0x82 => match body with
    | [w] => some (.window w)
    | _ => none
  | 0x83 => match body with
    | [a, b] => some (.taken (tagOf a b))
    | _ => none
  | 0x84 => match body with
    | [a, b] => some (.delivered (tagOf a b))
    | _ => none
  | 0x85 => match body with
    | kind :: detail :: count :: rest =>
      match faultKind? kind, tagsOf rest with
      | some k, some tags =>
        if tags.length = count.toNat ∧ tags.length ≤ 8 then some (.fault k detail tags) else none
      | _, _ => none
    | _ => none
  | 0x86 => match body with
    | [kind, detail] => (faultKind? kind).map fun k => .clear k detail
    | _ => none
  | 0x87 => match body with
    | [] => some .beat
    | _ => none
  | _ => none

/-- The type byte of a frame from a press (R210). -/
def PressFrame.typ : PressFrame → Byte
  | .hello .. => 0x81
  | .window _ => 0x82
  | .taken _ => 0x83
  | .delivered _ => 0x84
  | .fault .. => 0x85
  | .clear .. => 0x86
  | .beat => 0x87

/-- The body of a frame from a press (R210). -/
def PressFrame.body : PressFrame → List Byte
  | .hello model serial caps grades win => model.toList ++ serial.toList ++ [caps, grades, win]
  | .window w => [w]
  | .taken t => u16 t.toNat
  | .delivered t => u16 t.toNat
  | .fault k d tags => k.code :: d :: BitVec.ofNat 8 tags.length :: tags.flatMap fun t => u16 t.toNat
  | .clear k d => [k.code, d]
  | .beat => []

/-- The bytes a feed-link check covers: type, length and body (R210). -/
def feedChecked (typ : Byte) (body : List Byte) : List Byte := typ :: (u16 body.length ++ body)

/-- A whole feed-link frame (R210). -/
def feedFrame (typ : Byte) (body : List Byte) : List Byte :=
  0xC3 :: (feedChecked typ body ++ checkBytes (crc16 (feedChecked typ body)))

/-- A feed engine's receiver: hunting for the sync byte, or taking a frame (R70). -/
inductive FeedRx where
  | hunt
  | head (typ : Option Byte) (first : Option Byte)
  | content (typ : Byte) (len : Nat) (taken : List Byte)
  | check (typ : Byte) (len : Nat) (taken : List Byte) (first : Option Byte)
  deriving DecidableEq, Repr

/-- What a byte brings about at a feed engine's receiver (R70). -/
inductive FeedEvent where
  | nothing
  | badCheck (typ : Byte) (len : Nat) (body : List Byte) (check : Half)
  | badFrame (typ : Byte) (body : List Byte)
  | frame (f : PressFrame)
  deriving DecidableEq, Repr

/-- The receiver once a frame's body is whole, or still short of it. -/
def feedContentDone (typ : Byte) (len : Nat) (taken : List Byte) : FeedRx :=
  if len ≤ taken.length then .check typ len taken none else .content typ len taken

/-- What a frame that passed its check is (R70). -/
def feedSound (typ : Byte) (body : List Byte) : FeedEvent :=
  match parseFeed typ body with
  | some f => .frame f
  | none => .badFrame typ body

/-- One byte at a feed engine's receiver (R70): hunting passes over every byte but 0xC3, a length above 1,026 gives the
frame up at its second length byte and counts as a failed check. -/
def FeedRx.feed (r : FeedRx) (b : Byte) : FeedRx × FeedEvent :=
  match r with
  | .hunt => (if b = 0xC3 then .head none none else .hunt, .nothing)
  | .head none _ => (.head (some b) none, .nothing)
  | .head (some t) none => (.head (some t) (some b), .nothing)
  | .head (some t) (some h) =>
    if Config.maxFeedBody < be16 h b then (.hunt, .badCheck t (be16 h b) [] 0)
    else (feedContentDone t (be16 h b) [], .nothing)
  | .content t len taken => (feedContentDone t len (taken ++ [b]), .nothing)
  | .check t len taken none => (.check t len taken (some b), .nothing)
  | .check t len taken (some h) =>
    (.hunt,
      if be16 h b = (crc16 (t :: (u16 len ++ taken))).toNat then feedSound t taken
      else .badCheck t len taken (tagOf h b))

/-- The receiver and the events after a run of bytes. -/
def FeedRx.feedAll (r : FeedRx) : List Byte → FeedRx × List FeedEvent
  | [] => (r, [])
  | b :: l =>
    let (r1, e) := r.feed b
    let (r2, es) := r1.feedAll l
    (r2, if e = .nothing then es else e :: es)

/-- Whether a FEED_BAD_CHECK command spells a frame that fails: a length above 1,026, or a whole body whose check
differs from the one received (R70). -/
def feedCheckFails (typ : Byte) (len : Half) (body : List Byte) (check : Half) : Bool :=
  decide (Config.maxFeedBody < len.toNat) ||
    (decide (body.length = len.toNat) && decide (crc16 (typ :: (u16 len.toNat ++ body)) ≠ check))

end Sys2Proof.Machine
end

