-- ==== Sys2Proof/Decode.lean ====
section
/-! DEFINITION. Which command a whole frame stands for. The opcode table gives its rows no bits, so no numbered word
spells a command; what the part does decode is a message frame's type byte (R197, R210) and a feed-link frame (R70). -/

namespace Sys2Proof

open Sys2Proof.Machine

/-- The command that a table word spells: the table gives bits to no row, so no word spells one. -/
def decodeTableWord (_nbits _w : Nat) : Option Instr := none

/-- A RESET request: the row its scope byte names. -/
def decodeReset (tag : Byte) (body : List Byte) (pins : Pins) : Instr :=
  match body with
  | [b] => if b = 0 then .resetHard tag body pins else .resetSoft tag body
  | _ => .resetSoft tag body

/-- A MODE_SET request: the row its wanted mode names. -/
def decodeModeSet (tag : Byte) (body : List Byte) : Instr :=
  match body with
  | [b] => if b = 0 then .modeSetRun tag body else .modeSetQuiesce tag body
  | _ => .modeSetQuiesce tag body

/-- An ALERT_ACK request: the row its selector names. -/
def decodeAlertAck (tag : Byte) (body : List Byte) : Instr :=
  match body with
  | [b, _] => if b = 0 then .alertAckPress tag body else .alertAckZone tag body
  | _ => .alertAckZone tag body

/-- The command of a request frame by its type code (R210); the pin levels are those at a RESET HARD. -/
def decodeRequest (typ tag : Byte) (body : List Byte) (pins : Pins) : Instr :=
  match typ.toNat with
  | 0x01 => .identify tag body
  | 0x02 => .status tag body
  | 0x03 => decodeReset tag body pins
  | 0x04 => decodeModeSet tag body
  | 0x05 => .fetchNotices tag body
  | 0x06 => .attnMask tag body
  | 0x07 => .attnClear tag body
  | 0x10 => .jobOpen tag body
  | 0x11 => .sheetBegin tag body
  | 0x12 => .faceData tag body
  | 0x13 => .jobClose tag body
  | 0x14 => .jobCancel tag body
  | 0x15 => .jobQuery tag body
  | 0x16 => .jobList tag body
  | 0x17 => .jobRelease tag body
  | 0x18 => .jobRequeue tag body
  | 0x20 => .filterSet tag body
  | 0x21 => .filterEnable tag body
  | 0x22 => .filterQuery tag body
  | 0x23 => .classSet tag body
  | 0x24 => .classQuery tag body
  | 0x28 => .pressSet tag body
  | 0x29 => .pressEnable tag body
  | 0x2A => .pressDisable tag body
  | 0x2B => .pressQuery tag body
  | 0x2C => .pressWriteoff tag body
  | 0x30 => .planSet tag body
  | 0x31 => .planQuery tag body
  | 0x32 => .accountOpen tag body
  | 0x33 => .accountSet tag body
  | 0x34 => .accountAdjust tag body
  | 0x35 => .accountQuery tag body
  | 0x36 => .accountPeriod tag body
  | 0x37 => .accountClose tag body
  | 0x38 => .chargeQuote tag body
  | 0x39 => .meterRead tag body
  | 0x40 => .meterSave tag body
  | 0x41 => .storeQuery tag body
  | 0x48 => .alertModeSet tag body
  | 0x49 => .alertList tag body
  | 0x4A => .alertClear tag body
  | 0x4B => decodeAlertAck tag body
  | 0x4C => .zoneQuery tag body
  | _ => .unknownRequest typ tag body

/-- The command of an event of the message receiver (R196). -/
def decodeLink (pins : Pins) : RxEvent → Option Instr
  | .nothing => none
  | .badLength len => some (.frameBadLength (BitVec.ofNat 16 len))
  | .badCheck typ tag body check => some (.frameBadCheck typ tag body check)
  | .request typ tag body => some (decodeRequest typ tag body pins)

/-- The command of a sound frame from press `p` (R71). -/
def decodePressFrame (p : Fin 16) : PressFrame → Instr
  | .hello model serial caps grades win => .hello p model serial caps grades win
  | .window win => .window p win
  | .taken tag => .taken p tag
  | .delivered tag => .delivered p tag
  | .fault kind detail tags => .fault p kind detail tags
  | .clear kind detail => .clear p kind detail
  | .beat => .beat p

/-- The command of an event of press `p`'s feed receiver (R70). -/
def decodeFeed (p : Fin 16) : FeedEvent → Option Instr
  | .nothing => none
  | .badCheck typ len body check => some (.feedBadCheck p typ (BitVec.ofNat 16 len) body check)
  | .badFrame typ body => some (.feedBadFrame p typ body)
  | .frame f => some (decodePressFrame p f)

end Sys2Proof
end

