-- ==== Sys2Proof/Machine/State.lean ====
section
/-! DEFINITION. The state of the part as plain data, block by block (scope 3): message link controller, job table, spool
memory manager, routing unit, feed engines, meter unit, meter store, alert unit, zone controller, time base; the reasons
a step can stop; and the state after reset. -/

namespace Sys2Proof.Machine

/-! ### Jobs (chapter 1) -/

/-- Ink of a job or a face. -/
inductive Ink where
  | mono | color
  deriving DecidableEq, Repr

/-- Sides of a job. -/
inductive Sides where
  | simplex | duplex
  deriving DecidableEq, Repr

/-- What a loss does to its job (R10). -/
inductive JamPolicy where
  | reprint | fail
  deriving DecidableEq, Repr

/-- The job states of 1.5. -/
inductive JobState where
  | opened | queued | active | ending | done | failed | cancelled
  deriving DecidableEq, Repr

/-- The reasons of an end record (R17). -/
inductive EndReason where
  | done | failed | cancelled
  deriving DecidableEq, Repr

/-- A job handle: slot and generation (R1). -/
structure Handle where
  slot : Fin 64
  gen  : Byte
  deriving DecidableEq, Repr

/-- A sheet of a copy, the pair (copy, sheet). -/
structure CopySheet where
  copy  : Nat
  sheet : Nat
  deriving DecidableEq, Repr

/-- The cursor of a job (R6). -/
inductive Cursor where
  | next (copy sheet : Nat)
  | allDispatched
  deriving DecidableEq, Repr

/-- The end record of a final job (R17). -/
structure EndRecord where
  reason      : EndReason
  failedSheet : Option CopySheet
  topUp       : Nat
  shortfall   : Nat
  deriving DecidableEq, Repr

/-- What a job in ENDING will end as: its reason and the failed sheet of its coming end record (R10, R13, R14). -/
structure Coming where
  reason      : EndReason
  failedSheet : Option CopySheet
  deriving DecidableEq, Repr

/-- The job record of 1.1; the handle is the record's slot with the slot's generation. -/
structure Job where
  state     : JobState
  account   : Fin 256
  key       : Key
  label     : List Byte
  ink       : Ink
  sides     : Sides
  grade     : Fin 8
  copies    : Nat
  urgent    : Bool
  jam       : JamPolicy
  stream    : Bool
  filter    : Fin 32
  cls       : Fin 8
  sheets    : Nat
  closed    : Bool
  openSheet : Option Nat
  press     : Option (Fin 16)
  cursor    : Cursor
  reprint   : List CopySheet
  delivered : Nat
  faces     : Nat
  lost      : Nat
  charged   : Nat
  coming    : Option Coming
  endRecord : Option EndRecord
  openedAt  : Time
  endedAt   : Option Time
  deriving DecidableEq, Repr

/-- A slot of the job table: its generation count and, when occupied, its record (R1). -/
structure Slot where
  gen : Byte
  job : Option Job
  deriving DecidableEq, Repr

/-! ### Spool memory (chapter 2) -/

/-- The spool sizes of R24. -/
inductive SpoolSize where
  | mib128 | mib256 | mib512
  deriving DecidableEq, Repr

/-- A memory: pairs of address and byte, addresses rising, none equal to what an unlisted address reads as. -/
abbrev Memory := List Host.Cell

/-- An owned entry of the extent table: the owning job's handle and the extent's chain position (R25). -/
structure ExtentOwner where
  handle   : Handle
  position : Nat
  deriving DecidableEq, Repr

/-- A write position: chain position and offset within the extent there (R27). -/
structure WritePos where
  pos : Nat
  off : Nat
  deriving DecidableEq, Repr

/-- A face of a sheet record (R28). -/
structure Face where
  ink      : Ink
  coverage : Nat
  length   : Nat
  deriving DecidableEq, Repr

/-- Where a sheet's first byte lies: extent and offset (R29). -/
structure StartPos where
  extent : Nat
  offset : Nat
  deriving DecidableEq, Repr

/-- A sheet record (R28); a one-face sheet has no second face. -/
structure SheetRecord where
  complete : Bool
  face1    : Face
  face2    : Option Face
  start    : Option StartPos
  received : Nat
  deriving DecidableEq, Repr

/-- What the SMM keeps for one job slot: chain, write position and the records of its area of the sheet index region,
sheet 1 first (R27, R28). -/
structure SlotSpool where
  chain  : List Nat
  wpos   : WritePos
  sheets : List SheetRecord
  deriving DecidableEq, Repr

/-- The spool memory manager; an extent with no entry in `owners` is free in the extent table (R25). -/
structure Smm where
  size   : SpoolSize
  free   : List Nat
  owners : List (Nat × ExtentOwner)
  slots  : Vector SlotSpool 64
  mem    : Memory
  deriving DecidableEq, Repr

/-! ### Routing (chapter 3) -/

/-- The ink requirement of a filter (R44). -/
inductive InkReq where
  | any | mono | color
  deriving DecidableEq, Repr

/-- The sides requirement of a filter (R44). -/
inductive SidesReq where
  | any | simplex | duplex
  deriving DecidableEq, Repr

/-- A routing filter (R44). -/
structure Filter where
  enabled : Bool
  value   : Key
  mask    : Key
  ink     : InkReq
  sides   : SidesReq
  pattern : List Byte
  compare : Nat
  cls     : Fin 8
  deriving DecidableEq, Repr

/-- An entry of a class queue (R51). -/
structure QueueEntry where
  handle : Handle
  urgent : Bool
  deriving DecidableEq, Repr

/-- A class queue, head first (R51); its flags are derived (R56). -/
structure ClassQueue where
  entries  : List QueueEntry
  capacity : Nat
  deriving DecidableEq, Repr

/-- The routing unit; `reports` holds the queue events (R55) that the engines have still to take. -/
structure Ru where
  filters : Vector Filter 32
  queues  : Vector ClassQueue 8
  reports : List (Fin 8)
  deriving DecidableEq, Repr

/-! ### Presses and feed engines (chapters 4 and 5) -/

/-- Capabilities: reported, profile or effective (R61, R62). -/
structure Caps where
  color  : Bool
  duplex : Bool
  grades : Byte
  deriving DecidableEq, Repr

/-- The profile fields of a press record (R61). -/
structure Profile where
  classes    : List (Fin 8)
  caps       : Caps
  zone       : Fin 4
  linkTimeout : Nat
  stallTime  : Nat
  unbindTime : Nat
  checkpoint : Nat
  deriving DecidableEq, Repr

/-- The reported fields of a press record (R61). -/
structure Reported where
  model     : Vector Byte 16
  serial    : Vector Byte 12
  caps      : Caps
  announced : Byte
  deriving DecidableEq, Repr

/-- Link states (R65). -/
inductive LinkState where
  | disabled | awaiting | online
  deriving DecidableEq, Repr

/-- States of a path entry (R91). -/
inductive EntryState where
  | sending | sent | taken
  deriving DecidableEq, Repr

/-- A path entry (R91). -/
structure PathEntry where
  tag        : Half
  job        : Handle
  pair       : CopySheet
  ink1       : Ink
  ink2       : Option Ink
  charge     : Nat
  account    : Fin 256
  dispatched : Time
  takenAt    : Option Time
  state      : EntryState
  deriving DecidableEq, Repr

/-- Feed conditions (R96). -/
inductive FeedCond where
  | sending | windowFull | starved | fundsWait | draining | stopped
  deriving DecidableEq, Repr

/-- The last choice of an engine (R87). -/
inductive Choice where
  | starved | fundsWait | draining
  deriving DecidableEq, Repr

/-- The stall watch (R102): the watched tag and its deadline, and whether the alert unit dropped its raise (R171). -/
structure Watch where
  tag      : Half
  deadline : Time
  dropped  : Bool
  deriving DecidableEq, Repr

/-- The progress of the transmission on a link (R80): its tag, the sheet read, and the SHEET_DATA frames gone out. -/
structure Transmission where
  tag   : Half
  slot  : Fin 64
  sheet : Nat
  sent  : Nat
  deriving DecidableEq, Repr

/-- A frame to a press (R210). -/
inductive FeedFrame where
  | probe
  | jobMark (handle : Handle) (copies : Nat) (label : List Byte)
  | sheetHead (tag : Half) (grade : Fin 8) (face1 : Ink × Nat) (face2 : Option (Ink × Nat))
  | sheetData (tag : Half) (block : List Byte)
  | sheetEnd (tag : Half)
  | sheetAbort (tag : Half)
  | pause
  | resume
  | purge
  deriving DecidableEq, Repr

/-- A press record with its engine's dispatch state (R61, R87); `out` is the frames sent to the press since the last
hardware reset, oldest first. -/
structure Press where
  profile       : Profile
  reported      : Option Reported
  link          : LinkState
  effective     : Option Caps
  applied       : Option Nat
  lastFrame     : Option Time
  probes        : Nat
  badChecks     : Nat
  tagCounter    : Half
  probeDeadline : Option Time
  bound         : Option Handle
  path          : List PathEntry
  held          : Bool
  cond          : Option FeedCond
  lastChoice    : Option Choice
  runStall      : Option Nat
  runUnbind     : Option Nat
  watch         : Option Watch
  stalledTag    : Option Half
  unbindDeadline : Option Time
  tx            : Option Transmission
  out           : List FeedFrame
  deriving DecidableEq, Repr

/-! ### Plans, accounts and meters (chapters 6 to 8) -/

/-- One grade row of a price plan (R114). -/
structure PriceRow where
  paper : Nat
  mono  : Nat
  base  : Nat
  rate  : Nat
  deriving DecidableEq, Repr

/-- A price plan (R114). -/
structure Plan where
  rows    : Vector PriceRow 8
  t1 : Nat
  t2 : Nat
  t3 : Nat
  d1 : Nat
  d2 : Nat
  d3 : Nat
  minimum : Nat
  deriving DecidableEq, Repr

/-- Account states (R128). -/
inductive AccountState where
  | absent | opened | suspended
  deriving DecidableEq, Repr

/-- An account record (R128). Money is exact: balance, held amount and limit are integers. -/
structure Account where
  state     : AccountState
  plan      : Fin 8
  limit     : Int
  balance   : Int
  held      : Int
  faces     : Nat
  sheets    : Nat
  charged   : Nat
  shortfall : Nat
  deriving DecidableEq, Repr

/-- The four counters of a press (R145). -/
structure Counters where
  mono      : Nat
  color     : Nat
  delivered : Nat
  spoiled   : Nat
  deriving DecidableEq, Repr

/-- The live meter record of a press (R145). -/
structure Meter where
  live  : Counters
  since : Nat
  deriving DecidableEq, Repr

/-- A rise of an account's availability reported to a press (R139), that its engine has still to take. -/
structure Rise where
  press   : Fin 16
  account : Fin 256
  deriving DecidableEq, Repr

/-- The meter unit. -/
structure Mu where
  plans    : Vector Plan 8
  accounts : Vector Account 256
  meters   : Vector Meter 16
  rises    : List Rise
  deriving DecidableEq, Repr

/-! ### The meter store (chapter 8) -/

/-- Store states (R151). -/
inductive StoreState where
  | scanning | idle | writing | erasing | failed
  deriving DecidableEq, Repr

/-- Why the store failed (R151). -/
inductive FailReason where
  | erase (sector : Fin 4)
  | worn
  deriving DecidableEq, Repr

/-- A press's place in the pending set (R148). -/
structure Mark where
  pending : Bool
  forced  : Bool
  deriving DecidableEq, Repr

/-- The newest-record entry of a press (R151). -/
structure Newest where
  sector   : Fin 4
  slot     : Nat
  sequence : Nat
  deriving DecidableEq, Repr

/-- The slot counts of a sector (R160). -/
structure SlotCounts where
  free   : Nat
  void   : Nat
  record : Nat
  torn   : Nat
  deriving DecidableEq, Repr

/-- A write in progress (R153): its snapshot and sequence, the slots it has still to void on its way, the slot of its
record, and whether that slot is in the sector that was SPARE when the write began. -/
structure WriteOp where
  press    : Fin 16
  sequence : Nat
  snapshot : Counters
  voids    : List (Fin 4 × Nat)
  sector   : Fin 4
  slot     : Nat
  moves    : Bool
  deriving DecidableEq, Repr

/-- The flash operation in progress (R152). -/
inductive StoreOp where
  | write (w : WriteOp)
  | erase (sector : Fin 4)
  deriving DecidableEq, Repr

/-- Where the start-up scan stands (R162, R163): reading, erasing sectors (the rest after the one in progress), carrying
a victim forward, or at its end. -/
inductive ScanPhase where
  | reading
  | clearing (rest : List (Fin 4))
  | compacting
  | ending
  deriving DecidableEq, Repr

/-- The causes of a reset (R208, R209). -/
inductive ResetCause where
  | powerOn | pin | request | soft
  deriving DecidableEq, Repr

/-- The meter store (R148, R151); `torn` and `erased` are what the running scan has found and done (R161), and `cause`
is the reset that began it (R208). The sector after ACTIVE is SPARE when `spare` names it; every other one is OLD. -/
structure Store where
  state     : StoreState
  failed    : Option FailReason
  active    : Fin 4
  spare     : Option (Fin 4)
  writeSlot : Nat
  nextSeq   : Nat
  newest    : Vector (Option Newest) 16
  victim    : Option (Fin 4)
  attempts  : Nat
  saveOwed  : Bool
  marks     : Vector Mark 16
  counts    : Vector SlotCounts 4
  op        : Option StoreOp
  scan      : Option ScanPhase
  torn      : Nat
  erased    : Nat
  cause     : ResetCause
  flash     : Memory
  deriving DecidableEq, Repr

/-! ### Alerts and zones (chapters 9 and 10) -/

/-- Response modes (R167). -/
inductive AlertMode where
  | latched | retry | report | ignore
  deriving DecidableEq, Repr

/-- A row of the response-mode table (R167). -/
structure ModeRow where
  mode  : AlertMode
  retry : Nat
  deriving DecidableEq, Repr

/-- States of an alert entry (R169). -/
inductive AlertState where
  | active | retryWait | clearWait
  deriving DecidableEq, Repr

/-- An alert entry (R169); its kind is its place in the table. -/
structure AlertEntry where
  mode        : AlertMode
  retry       : Nat
  state       : AlertState
  detail      : Byte
  raisedAt    : Time
  occurrences : Nat
  deadline    : Option Time
  acked       : Bool
  deriving DecidableEq, Repr

/-- The alert unit: the response-mode table and one alert table of at most one entry a kind for each press (R169). -/
structure Au where
  modes  : Vector ModeRow 11
  tables : Vector (Vector (Option AlertEntry) 11) 16
  deriving DecidableEq, Repr

/-- Beacon patterns (R187). -/
inductive Pattern where
  | off | steady | slow | fast
  deriving DecidableEq, Repr

/-- Button states (R190). -/
inductive ButtonState where
  | released | pressing | pressed | releasing
  deriving DecidableEq, Repr

/-- Where an acknowledgement came from (R186). -/
inductive AckSource where
  | button | host
  deriving DecidableEq, Repr

/-- A zone record (R186). -/
structure Zone where
  pattern  : Pattern
  phase    : Option Time
  button   : ButtonState
  deadline : Option Time
  acks     : Nat
  lastAck  : Option (Time × AckSource)
  deriving DecidableEq, Repr

/-! ### The message link (chapter 11) -/

/-- Operating modes (R203). -/
inductive Mode where
  | setup | run | quiescing
  deriving DecidableEq, Repr

/-- Notice kinds, in the order of their bits (R200). -/
inductive NoticeKind where
  | job | alert | press | funds | zone | store | link | mode
  deriving DecidableEq, Repr

/-- A notice (R200). -/
structure Notice where
  kind    : NoticeKind
  subtype : Nat
  object  : Nat
  time    : Time
  detail  : List Byte
  deriving DecidableEq, Repr

/-- A reply in the queue: its type, the echoed tag, and its body, which begins with status and summary (R198, R199). -/
structure Reply where
  typ  : Byte
  tag  : Byte
  body : List Byte
  deriving DecidableEq, Repr

/-- Where the sender on MISO stands (R198): at the one 0xFF that follows a reply, or with `n` bytes of the reply at the
head of the queue clocked out. -/
inductive MisoState where
  | gap
  | reply (n : Nat)
  deriving DecidableEq, Repr

/-- The message link controller (R196 to R204): `discarded` counts the frames discarded since the last hardware reset,
`attn` is ATTN# (true when asserted), `miso` is the sender's place on MISO. -/
structure Mlc where
  rx          : RxState
  miso        : MisoState
  replies     : List Reply
  lostRequest : Bool
  notices     : List Notice
  overflow    : Bool
  pendingFlags : Byte
  mask        : Byte
  attn        : Bool
  mode        : Mode
  discarded   : Nat
  deriving DecidableEq, Repr

/-! ### The whole part -/

/-- The state of the part. `queue` of the blocks is `pending`: the commands waiting, first in first out. `choices` counts
the free choices made (log entry 5); it is the model's own field. -/
structure State where
  pending : List Instr
  tb      : Time
  pins    : Pins
  mlc     : Mlc
  jobs    : Vector Slot 64
  smm     : Smm
  ru      : Ru
  presses : Vector Press 16
  mu      : Mu
  store   : Store
  au      : Au
  zones   : Vector Zone 4
  choices : Nat
  deriving DecidableEq, Repr

/-- Why the part stops. -/
inductive Fault where
  /-- Raised by STORE_WRITE_BEGIN when neither ACTIVE nor SPARE has a free slot for the record. The manual holds
  that a fresh ACTIVE cannot fill again before the victim has become SPARE (R155) and gives such a write no effect (log entries
  23 and 38). Safe. -/
  | noFreeSlot
  deriving DecidableEq, Repr

/-- Why a command has no meaning here. -/
inductive Refusal where
  /-- A command of the opcode table that the model gives no meaning yet; raised by exec's arm alone. Safe. -/
  | notModelled (mnemonic : String)
  deriving DecidableEq, Repr

/-! ### The state after reset -/

/-- The spool size that the size-select pins give (R24). -/
def spoolSizeOf (pins : Pins) : SpoolSize :=
  match pins.sizeFirst, pins.sizeSecond with
  | false, false => .mib128
  | false, true => .mib256
  | true, false => .mib512
  | true, true => .mib128

/-- The extent total of a spool size (R24). -/
def SpoolSize.extents : SpoolSize → Nat
  | .mib128 => 1984
  | .mib256 => 4032
  | .mib512 => 8128

/-- A chain, write position and index area with nothing in them (R42). -/
def SlotSpool.empty : SlotSpool := { chain := [], wpos := ⟨0, 0⟩, sheets := [] }

/-- The spool after a reset, with its size and memory contents (R42, R43). -/
def Smm.fresh (size : SpoolSize) (mem : Memory) : Smm :=
  { size, free := List.range size.extents, owners := [], slots := Vector.replicate 64 SlotSpool.empty, mem }

/-- A filter after a hardware reset (R44). -/
def Filter.fresh : Filter :=
  { enabled := false, value := 0, mask := 0, ink := .any, sides := .any, pattern := [], compare := 0, cls := 0 }

/-- A class queue after a hardware reset (R59). -/
def ClassQueue.fresh : ClassQueue := { entries := [], capacity := 8 }

/-- The default profile of press `p` (R61). -/
def Profile.default (p : Fin 16) : Profile :=
  { classes := [0], caps := { color := true, duplex := true, grades := 0xFF }, zone := Fin.ofNat 4 (p.val / 4),
    linkTimeout := 2000, stallTime := 20, unbindTime := 120, checkpoint := 100 }

/-- A press record and dispatch state after a hardware reset (R61, R87). -/
def Press.fresh (p : Fin 16) : Press :=
  { profile := Profile.default p, reported := none, link := .disabled, effective := none, applied := none,
    lastFrame := none, probes := 0, badChecks := 0, tagCounter := 0, probeDeadline := none, bound := none, path := [],
    held := false, cond := none, lastChoice := none, runStall := none, runUnbind := none, watch := none,
    stalledTag := none, unbindDeadline := none, tx := none, out := [] }

/-- A price plan after a hardware reset (R114, R127). -/
def Plan.fresh : Plan :=
  { rows := Vector.replicate 8 ⟨0, 0, 0, 0⟩, t1 := 0, t2 := 0, t3 := 0, d1 := 0, d2 := 0, d3 := 0, minimum := 0 }

/-- An absent account (R128). -/
def Account.absent : Account :=
  { state := .absent, plan := 0, limit := 0, balance := 0, held := 0, faces := 0, sheets := 0, charged := 0,
    shortfall := 0 }

/-- A meter record before the scan has loaded it (R145). -/
def Meter.fresh : Meter := { live := ⟨0, 0, 0, 0⟩, since := 0 }

/-- The meter store as a hardware reset leaves it, with its flash (R164). The index is built by the scan. -/
def Store.fresh (cause : ResetCause) (flash : Memory) : Store :=
  { state := .scanning, failed := none, active := 0, spare := none, writeSlot := 0, nextSeq := 1,
    newest := Vector.replicate 16 none, victim := none, attempts := 0, saveOwed := false,
    marks := Vector.replicate 16 ⟨false, false⟩, counts := Vector.replicate 4 ⟨256, 0, 0, 0⟩, op := none,
    scan := some .reading, torn := 0, erased := 0, cause, flash }

/-- The default response-mode table, in kind-code order (R167). -/
def defaultModes : Vector ModeRow 11 :=
  #v[⟨.latched, 10⟩, ⟨.retry, 5⟩, ⟨.retry, 3⟩, ⟨.latched, 10⟩, ⟨.retry, 10⟩, ⟨.latched, 10⟩, ⟨.retry, 10⟩,
     ⟨.latched, 10⟩, ⟨.report, 10⟩, ⟨.report, 10⟩, ⟨.report, 10⟩]

/-- An empty alert table (R184). -/
def emptyTable : Vector (Option AlertEntry) 11 := Vector.replicate 11 none

/-- A zone record after a hardware reset, by the level of its acknowledge input (R186). -/
def Zone.fresh (active : Bool) : Zone :=
  { pattern := .off, phase := none, button := if active then .pressed else .released, deadline := none, acks := 0,
    lastAck := none }

/-- The message link controller after a hardware reset (R208). -/
def Mlc.fresh : Mlc :=
  { rx := .hunt, miso := .reply 0, replies := [], lostRequest := false, notices := [], overflow := false, pendingFlags := 0, mask := 0,
    attn := false, mode := .setup, discarded := 0 }

/-- The part right after a hardware reset by `cause` with these pin levels, spool memory contents and flash contents:
every block at the reset values its chapter gives (R22, R42, R59, R85, R112, R127, R143, R164, R184, R195, R208). -/
def State.hardware (cause : ResetCause) (pins : Pins) (mem flash : Memory) : State :=
  { pending := [], tb := 0, pins, mlc := Mlc.fresh, jobs := Vector.replicate 64 ⟨0, none⟩,
    smm := Smm.fresh (spoolSizeOf pins) mem,
    ru := { filters := Vector.replicate 32 Filter.fresh, queues := Vector.replicate 8 ClassQueue.fresh, reports := [] },
    presses := Vector.ofFn Press.fresh,
    mu := { plans := Vector.replicate 8 Plan.fresh, accounts := Vector.replicate 256 Account.absent,
            meters := Vector.replicate 16 Meter.fresh, rises := [] },
    store := Store.fresh cause flash,
    au := { modes := defaultModes, tables := Vector.replicate 16 emptyTable },
    zones := #v[Zone.fresh pins.ack0, Zone.fresh pins.ack1, Zone.fresh pins.ack2, Zone.fresh pins.ack3],
    choices := 0 }

/-- The pin levels of `State.reset`: size-select low, low and no button held. Log entry 2 (DESIGN CHOICE). -/
def Pins.idle : Pins := ⟨false, false, false, false, false, false⟩

/-- The part right after power-on with an erased flash and nothing written in the spool memory. Log entries 2, 3, 4. -/
def State.reset : State := State.hardware .powerOn Pins.idle [] []

/-! ### Updates of one block, which every operation is written over -/

/-- Change the message link controller. -/
def State.mapMlc (f : Mlc → Mlc) (s : State) : State := { s with mlc := f s.mlc }

/-- Change one slot of the job table. -/
def State.mapSlot (i : Fin 64) (f : Slot → Slot) (s : State) : State := { s with jobs := s.jobs.set i (f s.jobs[i]) }

/-- Change the spool memory manager. -/
def State.mapSmm (f : Smm → Smm) (s : State) : State := { s with smm := f s.smm }

/-- Change the routing unit. -/
def State.mapRu (f : Ru → Ru) (s : State) : State := { s with ru := f s.ru }

/-- Change one press record. -/
def State.mapPress (p : Fin 16) (f : Press → Press) (s : State) : State :=
  { s with presses := s.presses.set p (f s.presses[p]) }

/-- Change the meter unit. -/
def State.mapMu (f : Mu → Mu) (s : State) : State := { s with mu := f s.mu }

/-- Change the meter store. -/
def State.mapStore (f : Store → Store) (s : State) : State := { s with store := f s.store }

/-- Change the alert unit. -/
def State.mapAu (f : Au → Au) (s : State) : State := { s with au := f s.au }

/-- Change one zone record. -/
def State.mapZone (z : Fin 4) (f : Zone → Zone) (s : State) : State := { s with zones := s.zones.set z (f s.zones[z]) }

end Sys2Proof.Machine
end

