-- ==== Sys2Proof/Machine/Memory.lean ====
section
/-! DEFINITION. The two addressed memories, the spool's DDR SDRAM (chapter 2) and the meter store's flash (chapter 8), as
lists of address and byte in one canonical form, with the operations over them. -/

namespace Sys2Proof.Machine

/-- The canonical form: addresses strictly rising, and no entry equal to what an unlisted address reads as. -/
def Memory.wf (d : Byte) : Memory → Bool
  | [] => true
  | [c] => decide (c.2 ≠ d)
  | c :: c' :: m => decide (c.2 ≠ d) && decide (c.1 < c'.1) && Memory.wf d (c' :: m)

/-- The byte at an address; an unlisted one reads as `d`. -/
def Memory.read (d : Byte) : Memory → Nat → Byte
  | [], _ => d
  | (x, y) :: m, a => if a = x then y else Memory.read d m a

/-- Put a byte at an address, keeping the canonical form. -/
def Memory.write (d : Byte) : Memory → Nat → Byte → Memory
  | [], a, b => if b = d then [] else [(a, b)]
  | (x, y) :: m, a, b =>
    if a < x then (if b = d then (x, y) :: m else (a, b) :: (x, y) :: m)
    else if a = x then (if b = d then m else (a, b) :: m)
    else (x, y) :: Memory.write d m a b

/-- Make every address from `lo` on, `n` of them, unlisted. -/
def Memory.clear (lo n : Nat) (m : Memory) : Memory :=
  m.filter fun c => decide (c.1 < lo) || decide (lo + n ≤ c.1)

/-- Write bytes one after another from an address. -/
def Memory.writeAll (d : Byte) (m : Memory) (a : Nat) : List Byte → Memory
  | [] => m
  | b :: l => Memory.writeAll d (Memory.write d m a b) (a + 1) l

/-- The `n` bytes from an address. -/
def Memory.readAll (d : Byte) (m : Memory) (a n : Nat) : List Byte :=
  (List.range n).map fun i => Memory.read d m (a + i)

/-! ### Flash (chapter 8): programming only clears bits, an erase sets a whole sector -/

/-- Program one byte: bits are cleared and never set. -/
def flashProgram (m : Memory) (a : Nat) (b : Byte) : Memory :=
  Memory.write Config.erasedByte m a (Memory.read Config.erasedByte m a &&& b)

/-- Program bytes one after another from an address. -/
def flashProgramAll (m : Memory) (a : Nat) : List Byte → Memory
  | [] => m
  | b :: l => flashProgramAll (flashProgram m a b) (a + 1) l

/-- The first address of a slot of a sector. -/
def slotAddress (sector : Fin 4) (slot : Nat) : Nat := sector.val * Config.sectorBytes + slot * Config.slotBytes

/-- The 32 bytes of a slot. -/
def slotContent (m : Memory) (sector : Fin 4) (slot : Nat) : List Byte :=
  Memory.readAll Config.erasedByte m (slotAddress sector slot) Config.slotBytes

/-- A sector after an erase that left `residue` in it, each byte at its offset (R157). -/
def flashErase (m : Memory) (sector : Fin 4) (residue : List (Nat × Byte)) : Memory :=
  residue.foldl
    (fun m c => if c.1 < Config.sectorBytes
      then Memory.write Config.erasedByte m (sector.val * Config.sectorBytes + c.1) c.2 else m)
    (Memory.clear (sector.val * Config.sectorBytes) Config.sectorBytes m)

end Sys2Proof.Machine
end

