-- ==== Sys2Proof/Machine/Flags.lean ====
section
/-! DEFINITION. What the part derives from its state whenever it is asked: queue flags, attention, availability,
capabilities, feed conditions, holds, due deadlines, beacon patterns and slot kinds. -/

namespace Sys2Proof

/-! ### Alert kinds (R166) -/

/-- The code of a kind, its place in the tables (R166). -/
def AlertKind.code : AlertKind → Fin 11
  | .jam => 0
  | .trayEmpty => 1
  | .doorOpen => 2
  | .tonerOut => 3
  | .binFull => 4
  | .mediaMismatch => 5
  | .linkSilent => 6
  | .stall => 7
  | .misfeed => 8
  | .protocol => 9
  | .pressRestart => 10

/-- All kinds, in kind-code order. -/
def AlertKind.all : List AlertKind :=
  [.jam, .trayEmpty, .doorOpen, .tonerOut, .binFull, .mediaMismatch, .linkSilent, .stall, .misfeed, .protocol,
   .pressRestart]

/-- The momentary kinds (R173). -/
def AlertKind.momentary : AlertKind → Bool
  | .misfeed => true
  | .protocol => true
  | .pressRestart => true
  | _ => false

/-- The alert kind of a kind a press names (R210). -/
def FaultKind.alert : FaultKind → AlertKind
  | .jam => .jam
  | .trayEmpty => .trayEmpty
  | .doorOpen => .doorOpen
  | .tonerOut => .tonerOut
  | .binFull => .binFull
  | .mediaMismatch => .mediaMismatch

end Sys2Proof

namespace Sys2Proof.Machine

/-! ### Time (scope 7.3) -/

/-- Whether the TB count has reached a deadline, modulo 2^32: fewer than 2^31 milliseconds lie between the deadline and
now. Log entry 9 (DEDUCED). -/
def reached (now deadline : Time) : Bool := !(now - deadline).msb

/-! ### Class queues (R56) -/

/-- NOT_EMPTY: the count is at least 1. -/
def ClassQueue.notEmpty (q : ClassQueue) : Bool := decide (1 ≤ q.entries.length)

/-- HALF: the count is at least the capacity divided by 2, rounded up. -/
def ClassQueue.half (q : ClassQueue) : Bool := decide ((q.capacity + 1) / 2 ≤ q.entries.length)

/-- FULL: the count equals the capacity. -/
def ClassQueue.full (q : ClassQueue) : Bool := decide (q.entries.length = q.capacity)

/-- A queue below its capacity has room for an insertion (R51). -/
def ClassQueue.room (q : ClassQueue) : Bool := decide (q.entries.length < q.capacity)

/-! ### The message link -/

/-- The bit of a notice kind in the pending flags and the mask (R200). -/
def NoticeKind.bit : NoticeKind → Byte
  | .job => 0x01
  | .alert => 0x02
  | .press => 0x04
  | .funds => 0x08
  | .zone => 0x10
  | .store => 0x20
  | .link => 0x40
  | .mode => 0x80

/-- ATTN# is asserted exactly when some pending flag and its mask bit are both set (R201). -/
def attnOf (pending mask : Byte) : Bool := (pending &&& mask) != 0

/-- Whether the start-up scan runs (R152). -/
def State.scanning (s : State) : Bool := decide (s.store.state = .scanning)

/-! ### Jobs -/

/-- A final state (1.1). -/
def JobState.final : JobState → Bool
  | .done => true
  | .failed => true
  | .cancelled => true
  | _ => false

/-- The final state of an end reason. -/
def EndReason.state : EndReason → JobState
  | .done => .done
  | .failed => .failed
  | .cancelled => .cancelled

/-- The job a handle names, if its slot holds one of that generation (R2). -/
def State.jobOf (s : State) (h : Handle) : Option Job :=
  if s.jobs[h.slot].gen = h.gen ∧ h.gen ≠ 0 then s.jobs[h.slot].job else none

/-- The handle of the job that holds a slot (R1). -/
def State.handleAt (s : State) (i : Fin 64) : Handle := { slot := i, gen := s.jobs[i].gen }

/-- The number of path entries of a job, 0 when it is unbound (R19). -/
def State.pathCountOf (s : State) (j : Job) : Nat :=
  match j.press with
  | some p => s.presses[p].path.length
  | none => 0

/-- The done condition (R15): upload closed, all dispatched, nothing to reprint and an empty path. -/
def State.doneCondition (s : State) (j : Job) : Bool :=
  j.closed && decide (j.cursor = .allDispatched) && j.reprint.isEmpty && decide (s.pathCountOf j = 0)

/-- Jobs that are not final and name account `a` (R133, R135). -/
def State.liveJobsOf (s : State) (a : Fin 256) : List Job :=
  s.jobs.toList.filterMap fun sl => sl.job.bind fun j => if j.account = a ∧ j.state.final = false then some j else none

/-! ### Capabilities (R62) -/

/-- Capabilities of the profile intersected with those reported. -/
def Caps.inter (a b : Caps) : Caps :=
  { color := a.color && b.color, duplex := a.duplex && b.duplex, grades := a.grades &&& b.grades }

/-- A job is compatible with capabilities: MONO or color capable, SIMPLEX or duplex capable, its grade in the set. -/
def Caps.allows (c : Caps) (j : Job) : Bool :=
  (decide (j.ink = .mono) || c.color) && (decide (j.sides = .simplex) || c.duplex) && c.grades.getLsbD j.grade.val

/-- Whether a press may be given a job: its effective capabilities, when it has any, allow it. -/
def Press.allows (pr : Press) (j : Job) : Bool :=
  match pr.effective with
  | some c => c.allows j
  | none => false

/-- The applied window of an announced one: clamped into 1 to 8 (R73). -/
def clampWindow (announced : Nat) : Nat := max 1 (min 8 announced)

/-- The applied window for the dispatch conditions; an absent one leaves no room. -/
def Press.window (pr : Press) : Nat := pr.applied.getD 0

/-- A READY press: ONLINE with no bound job (R65). -/
def Press.ready (pr : Press) : Bool := decide (pr.link = .online) && pr.bound.isNone

/-- A FEEDING press: ONLINE with a bound job (R65). -/
def Press.feeding (pr : Press) : Bool := decide (pr.link = .online) && pr.bound.isSome

/-- Whether an entry of the path is SENDING. -/
def Press.sending (pr : Press) : Bool := pr.path.any fun e => decide (e.state = .sending)

/-! ### Feed condition and unbind timer (R96, R104) -/

/-- The feed condition a last choice stands for. -/
def Choice.cond : Choice → FeedCond
  | .starved => .starved
  | .fundsWait => .fundsWait
  | .draining => .draining

/-- The feed condition of a press in a mode (R96). With no last choice the next opportunity is pending, and the condition
stays what it was until that opportunity leaves one. -/
def Press.deriveCond (mode : Mode) (pr : Press) : Option FeedCond :=
  if pr.bound.isNone then none
  else if pr.held || decide (mode ≠ .run) then some .stopped
  else if pr.sending then some .sending
  else if pr.window ≤ pr.path.length then some .windowFull
  else match pr.lastChoice with
    | some c => some c.cond
    | none => pr.cond

/-- Whether the unbind timer of a press runs (R104), by its feed condition. -/
def Press.unbindRuns (pr : Press) : Bool :=
  pr.bound.isSome && decide (pr.runUnbind.getD 0 ≠ 0) && pr.path.isEmpty && (pr.held || decide (pr.cond = some .starved))

/-- The oldest entry of the path with a time taken, as the stall watch follows it (R102). -/
def watchOf (stall : Nat) (path : List PathEntry) : Option Watch :=
  (path.find? fun e => e.takenAt.isSome).bind fun e =>
    e.takenAt.map fun t => { tag := e.tag, deadline := t + secs stall, dropped := false }

/-- The silence deadline of an ONLINE press: last frame time plus link timeout (R78). -/
def Press.silenceAt (pr : Press) : Option Time := pr.lastFrame.map fun t => t + ms pr.profile.linkTimeout

/-! ### Accounts (R129) -/

/-- The availability of an account: B - H + L. -/
def Account.availability (a : Account) : Int := a.balance - a.held + a.limit

/-- An account that holds a record: OPEN or SUSPENDED. -/
def Account.present (a : Account) : Bool := decide (a.state ≠ .absent)

/-- The presses whose bound job bills account `a` and whose feed condition is FUNDS_WAIT (R139). ACCOUNT_QUERY lists them in
ascending press number: log entry 10 (DESIGN CHOICE). -/
def State.waitingOn (s : State) (a : Fin 256) : List (Fin 16) :=
  (List.finRange 16).filter fun p =>
    decide (s.presses[p].deriveCond s.mlc.mode = some .fundsWait) &&
      match s.presses[p].bound.bind s.jobOf with
      | some j => decide (j.account = a)
      | none => false

/-- The path entries, on all presses, that bill to account `a` (R133). -/
def State.entriesOf (s : State) (a : Fin 256) : List PathEntry :=
  s.presses.toList.flatMap fun pr => pr.path.filter fun e => decide (e.account = a)

/-! ### Alerts and holds (R166, R170) -/

/-- An entry that holds its press: raised LATCHED or RETRY (R170). -/
def AlertEntry.holds (e : AlertEntry) : Bool :=
  match e.mode with
  | .latched => true
  | .retry => true
  | _ => false

/-- The entries of a press's table, in kind-code order. -/
def tableEntries (t : Vector (Option AlertEntry) 11) : List AlertEntry := t.toList.filterMap id

/-- Whether a table holds its press (R170). -/
def tableHolds (t : Vector (Option AlertEntry) 11) : Bool := (tableEntries t).any AlertEntry.holds

/-- The entry of a kind in a press's table. -/
def State.entry (s : State) (p : Fin 16) (k : AlertKind) : Option AlertEntry := s.au.tables[p][k.code]

/-- Whether LINK_SILENT is active on a press (R78, R108). -/
def State.silent (s : State) (p : Fin 16) : Bool :=
  match s.entry p .linkSilent with
  | some e => decide (e.state = .active)
  | none => false

/-! ### Zones (R186, R187) -/

/-- The member presses of a zone, in ascending order (R186). -/
def State.members (s : State) (z : Fin 4) : List (Fin 16) :=
  (List.finRange 16).filter fun p => decide (s.presses[p].profile.zone = z)

/-- The alert entries of a zone's member presses. -/
def State.zoneEntries (s : State) (z : Fin 4) : List AlertEntry :=
  (s.members z).flatMap fun p => tableEntries s.au.tables[p]

/-- An unacknowledged entry raised with a mode. -/
def AlertEntry.unackedIn (m : AlertMode) (e : AlertEntry) : Bool := !e.acked && decide (e.mode = m)

/-- The beacon pattern of a list of entries (R187). -/
def patternOf (l : List AlertEntry) : Pattern :=
  if l.any (AlertEntry.unackedIn .latched) then .fast
  else if l.any (AlertEntry.unackedIn .retry) then .slow
  else if l.isEmpty then .off
  else .steady

/-- A blinking pattern (R188). -/
def Pattern.blinks : Pattern → Bool
  | .slow => true
  | .fast => true
  | _ => false

/-- Half a period of a blinking pattern in milliseconds (R188). -/
def Pattern.halfPeriod : Pattern → Nat
  | .slow => 500
  | .fast => 125
  | _ => 0

/-- Whether a zone's lamp is lit at a time (R188): by the pattern and, for the blinking ones, by the time elapsed since
the phase start modulo 2^32, beginning with the lit half. -/
def Zone.lampLit (z : Zone) (now : Time) : Bool :=
  match z.pattern with
  | .off => false
  | .steady => true
  | p =>
    match z.phase with
    | some t => decide ((now - t).toNat / p.halfPeriod % 2 = 0)
    | none => false

end Sys2Proof.Machine
end

