-- ==== Sys2Proof/Machine/Operands.lean ====
section
/-! DEFINITION. The operand forms of the requests, read from their bodies by the widths of R211, and the codes and
records that replies and notices carry. Where R211 leaves a layout open the choice is log entry 10. -/

namespace Sys2Proof.Machine

/-! ### Codes of enumerated fields (R211: 0, 1, 2 and so on in the order in which the defining rule lists the values) -/

/-- Code of an ink (R210: 0 MONO, 1 COLOR). -/
def Ink.code : Ink → Nat
  | .mono => 0
  | .color => 1

/-- Code of the sides. -/
def Sides.code : Sides → Nat
  | .simplex => 0
  | .duplex => 1

/-- Code of a jam policy. -/
def JamPolicy.code : JamPolicy → Nat
  | .reprint => 0
  | .fail => 1

/-- Code of a job state, and its bit in the state set of JOB_LIST (R20). -/
def JobState.code : JobState → Nat
  | .opened => 0
  | .queued => 1
  | .active => 2
  | .ending => 3
  | .done => 4
  | .failed => 5
  | .cancelled => 6

/-- All job states, in the order of 1.1. -/
def JobState.all : List JobState := [.opened, .queued, .active, .ending, .done, .failed, .cancelled]

/-- Code of an end reason; also the subtype of its JOB notice (R211). -/
def EndReason.code : EndReason → Nat
  | .done => 0
  | .failed => 1
  | .cancelled => 2

/-- Code of an ink requirement (R44). -/
def InkReq.code : InkReq → Nat
  | .any => 0
  | .mono => 1
  | .color => 2

/-- Code of a sides requirement (R44). -/
def SidesReq.code : SidesReq → Nat
  | .any => 0
  | .simplex => 1
  | .duplex => 2

/-- Code of a link state (R65). -/
def LinkState.code : LinkState → Nat
  | .disabled => 0
  | .awaiting => 1
  | .online => 2

/-- Code of a press state (R65): DISABLED, AWAITING, READY, FEEDING. -/
def Press.stateCode (pr : Press) : Nat :=
  match pr.link with
  | .disabled => 0
  | .awaiting => 1
  | .online => if pr.bound.isSome then 3 else 2

/-- Code of an entry state (R91). -/
def EntryState.code : EntryState → Nat
  | .sending => 0
  | .sent => 1
  | .taken => 2

/-- Code of a feed condition (R87). -/
def FeedCond.code : FeedCond → Nat
  | .sending => 0
  | .windowFull => 1
  | .starved => 2
  | .fundsWait => 3
  | .draining => 4
  | .stopped => 5

/-- Code of an account state (R128). -/
def AccountState.code : AccountState → Nat
  | .absent => 0
  | .opened => 1
  | .suspended => 2

/-- Code of a store state (R151). -/
def StoreState.code : StoreState → Nat
  | .scanning => 0
  | .idle => 1
  | .writing => 2
  | .erasing => 3
  | .failed => 4

/-- Code of a reset cause (R208, R209). -/
def ResetCause.code : ResetCause → Nat
  | .powerOn => 0
  | .pin => 1
  | .request => 2
  | .soft => 3

/-- Code of a response mode (R167). -/
def AlertMode.code : AlertMode → Nat
  | .latched => 0
  | .retry => 1
  | .report => 2
  | .ignore => 3

/-- The response mode of a code (R168). -/
def alertMode? (b : Byte) : Option AlertMode :=
  match b.toNat with
  | 0 => some .latched
  | 1 => some .retry
  | 2 => some .report
  | 3 => some .ignore
  | _ => none

/-- Code of an alert state (R169). -/
def AlertState.code : AlertState → Nat
  | .active => 0
  | .retryWait => 1
  | .clearWait => 2

/-- Code of a pattern (R187). -/
def Pattern.code : Pattern → Nat
  | .off => 0
  | .steady => 1
  | .slow => 2
  | .fast => 3

/-- Code of a button state (R186). -/
def ButtonState.code : ButtonState → Nat
  | .released => 0
  | .pressing => 1
  | .pressed => 2
  | .releasing => 3

/-- Code of an acknowledgement's source, and the subtype of its ZONE notice (R186, R211). -/
def AckSource.code : AckSource → Nat
  | .button => 0
  | .host => 1

/-- Code of a notice kind (R200). -/
def NoticeKind.code : NoticeKind → Nat
  | .job => 0
  | .alert => 1
  | .press => 2
  | .funds => 3
  | .zone => 4
  | .store => 5
  | .link => 6
  | .mode => 7

/-- The ink of a code. -/
def ink? (b : Byte) : Option Ink :=
  match b.toNat with
  | 0 => some .mono
  | 1 => some .color
  | _ => none

/-! ### Records in replies -/

/-- A job handle: slot then generation (R211). -/
def Handle.bytes (h : Handle) : List Byte := u8 h.slot.val ++ [h.gen]

/-- A (copy, sheet) pair: two bytes each. -/
def CopySheet.bytes (c : CopySheet) : List Byte := u16 c.copy ++ u16 c.sheet

/-- A cursor: present with its (copy, sheet), or absent for ALL_DISPATCHED. -/
def Cursor.bytes : Cursor → List Byte
  | .next c n => 1 :: (u16 c ++ u16 n)
  | .allDispatched => [0]

/-- An end record (R17). -/
def EndRecord.bytes (e : EndRecord) : List Byte :=
  u8 e.reason.code ++ opt CopySheet.bytes e.failedSheet ++ u16 e.topUp ++ u16 e.shortfall

/-- Capabilities: color, duplex, grade set. -/
def Caps.bytes (c : Caps) : List Byte := flag c.color ++ flag c.duplex ++ [c.grades]

/-- The profile fields (R61). -/
def Profile.bytes (f : Profile) : List Byte :=
  list8 (fun c : Fin 8 => u8 c.val) f.classes ++ f.caps.bytes ++ u8 f.zone.val ++ u16 f.linkTimeout ++ u8 f.stallTime ++
    u16 f.unbindTime ++ u16 f.checkpoint

/-- The flags of a class queue as a set (R56). -/
def ClassQueue.flagsByte (q : ClassQueue) : List Byte :=
  u8 ((if q.notEmpty then 1 else 0) + (if q.half then 2 else 0) + if q.full then 4 else 0)

/-- An account record with its availability (R128, R129). -/
def Account.bytes (a : Account) : List Byte :=
  u8 a.state.code ++ u8 a.plan.val ++ u24 a.limit.toNat ++ i32 a.balance ++ u32 a.held.toNat ++ u32 a.faces ++
    u32 a.sheets ++ u32 a.charged ++ u32 a.shortfall

/-- An account record as written and its availability. -/
def Account.withAvailability (a : Account) : List Byte := a.bytes ++ i32 a.availability

/-- Four meter counters (R145). -/
def Counters.bytes (c : Counters) : List Byte := u32 c.mono ++ u32 c.color ++ u32 c.delivered ++ u32 c.spoiled

/-- A set of up to 16 members in two bytes (R211). -/
def set16 (f : Fin 16 → Bool) : List Byte :=
  u16 ((List.finRange 16).foldl (fun n p => n + if f p then 2 ^ p.val else 0) 0)

/-- A notice record (R210). -/
def Notice.bytes (n : Notice) : List Byte :=
  u8 n.kind.code ++ u8 n.subtype ++ u16 n.object ++ timeBytes n.time ++ list8 (fun b => [b]) n.detail

/-- A reply as its frame (R198, R210). -/
def Reply.frame (r : Reply) : List Byte := messageFrame r.typ r.tag r.body

/-- The 32 bytes of a meter record (R150; the form of its check is log entry 43). -/
def recordBytes (p : Fin 16) (sequence : Nat) (c : Counters) : List Byte :=
  let head := 0xA5 :: (u8 p.val ++ u32 sequence ++ c.bytes ++ List.replicate 8 0)
  head ++ checkBytes (crc16 head)

/-- A meter record read back (R150). -/
structure MeterRecord where
  press    : Fin 16
  sequence : Nat
  counters : Counters
  deriving DecidableEq, Repr

/-- The four counters at the place of a record. -/
def countersAt (l : List Byte) : Counters := ⟨word l 6, word l 10, word l 14, word l 18⟩

/-- Each counter within its range. -/
def Counters.inRange (c : Counters) : Bool :=
  decide (c.mono ≤ maxMeter) && decide (c.color ≤ maxMeter) && decide (c.delivered ≤ maxMeter) &&
    decide (c.spoiled ≤ maxMeter)

/-- The valid record that 32 bytes hold, if they hold one (R150): mark, check, press, sequence and counters. The form of the
check is log entry 43. -/
def parseRecord (l : List Byte) : Option MeterRecord :=
  match toFin? 16 (byteAt l 1).toNat with
  | none => none
  | some p =>
    if byteAt l 0 = 0xA5 ∧ half l 30 = (crc16 (l.take 30)).toNat ∧ 1 ≤ word l 2 ∧ word l 2 ≤ Config.maxSequence ∧
        (countersAt l).inRange then
      some { press := p, sequence := word l 2, counters := countersAt l }
    else none

/-- The kinds of slot content (R150). -/
inductive SlotKind where
  | free | void | record (r : MeterRecord) | torn
  deriving DecidableEq, Repr

/-- The kind of 32 bytes (R150). -/
def slotKindOf (l : List Byte) : SlotKind :=
  if l.all (fun b => decide (b = 0xFF)) then .free
  else if l.all (fun b => decide (b = 0)) then .void
  else match parseRecord l with
    | some r => .record r
    | none => .torn

/-- The bytes of a frame to a press after its sync: type and body (R210). -/
def FeedFrame.typ : FeedFrame → Byte
  | .probe => 0x01
  | .jobMark .. => 0x02
  | .sheetHead .. => 0x03
  | .sheetData .. => 0x04
  | .sheetEnd _ => 0x05
  | .sheetAbort _ => 0x06
  | .pause => 0x07
  | .resume => 0x08
  | .purge => 0x09

/-- A face in SHEET_HEAD: an ink byte and a 3-byte length (R210). -/
def headFace (f : Ink × Nat) : List Byte := u8 f.1.code ++ u24 f.2

/-- The body of a frame to a press (R210). -/
def FeedFrame.body : FeedFrame → List Byte
  | .probe => []
  | .jobMark h copies label => h.bytes ++ u16 copies ++ list8 (fun b => [b]) label
  | .sheetHead tag grade f1 none => u16 tag.toNat ++ u8 1 ++ u8 grade.val ++ headFace f1
  | .sheetHead tag grade f1 (some f2) => u16 tag.toNat ++ u8 2 ++ u8 grade.val ++ headFace f1 ++ headFace f2
  | .sheetData tag block => u16 tag.toNat ++ block
  | .sheetEnd tag => u16 tag.toNat
  | .sheetAbort tag => u16 tag.toNat
  | .pause => []
  | .resume => []
  | .purge => []

/-- A frame to a press as the bytes on its link (R210). -/
def FeedFrame.bytes (f : FeedFrame) : List Byte := feedFrame f.typ f.body

/-! ### Request bodies -/

/-- A two-byte handle field: slot number and generation. -/
structure HandleField where
  slot : Nat
  gen  : Byte
  deriving DecidableEq, Repr

/-- What JOB_OPEN carries, as sent (1.3). -/
structure JobOpenBody where
  account : Nat
  key     : Key
  label   : List Byte
  ink     : Byte
  sides   : Byte
  grade   : Nat
  copies  : Nat
  urgent  : Bool
  jam     : Byte
  stream  : Bool
  deriving DecidableEq, Repr

/-- A JOB_OPEN body of agreeing length with a label of at most 24 bytes (R3 check 2). -/
def jobOpenBody : List Byte → Option JobOpenBody
  | a1 :: a0 :: k3 :: k2 :: k1 :: k0 :: n :: rest =>
    if 24 < n.toNat then none
    else match rest.drop n.toNat with
      | [ink, sides, grade, c1, c0, urgent, jam, stream] =>
        some { account := be16 a1 a0, key := BitVec.ofNat 32 (be32 k3 k2 k1 k0), label := rest.take n.toNat, ink, sides,
               grade := grade.toNat, copies := be16 c1 c0, urgent := yes urgent, jam, stream := yes stream }
      | _ => none
  | _ => none

/-- What JOB_OPEN carries, each value in its range (R3 check 3). -/
structure JobOpenValues where
  account : Fin 256
  key     : Key
  label   : List Byte
  ink     : Ink
  sides   : Sides
  grade   : Fin 8
  copies  : Nat
  urgent  : Bool
  jam     : JamPolicy
  stream  : Bool
  deriving DecidableEq, Repr

/-- The sides of a code. -/
def sides? (b : Byte) : Option Sides :=
  match b.toNat with
  | 0 => some .simplex
  | 1 => some .duplex
  | _ => none

/-- The jam policy of a code. -/
def jam? (b : Byte) : Option JamPolicy :=
  match b.toNat with
  | 0 => some .reprint
  | 1 => some .fail
  | _ => none

/-- JOB_OPEN's values checked (R3 check 3). -/
def JobOpenBody.values (b : JobOpenBody) : Option JobOpenValues :=
  match toFin? 256 b.account, ink? b.ink, sides? b.sides, toFin? 8 b.grade, jam? b.jam with
  | some account, some ink, some sides, some grade, some jam =>
    if 1 ≤ b.copies ∧ b.copies ≤ 9999 then
      some { account, key := b.key, label := b.label, ink, sides, grade, copies := b.copies, urgent := b.urgent, jam,
             stream := b.stream }
    else none
  | _, _, _, _, _ => none

/-- A face as declared in SHEET_BEGIN: ink, coverage and byte length. -/
structure FaceDecl where
  ink      : Byte
  coverage : Nat
  length   : Nat
  deriving DecidableEq, Repr

/-- The faces of a SHEET_BEGIN, five bytes each; none when bytes are left over. -/
def faceDecls : List Byte → Option (List FaceDecl)
  | [] => some []
  | i :: c :: l2 :: l1 :: l0 :: rest =>
    (faceDecls rest).map (⟨i, c.toNat, be24 l2 l1 l0⟩ :: ·)
  | _ => none

/-- What a SHEET_BEGIN declares after its handle: a face count and as many faces (R30 check 2). -/
def sheetBody : List Byte → Option (List FaceDecl)
  | n :: rest =>
    match faceDecls rest with
    | some l => if l.length = n.toNat then some l else none
    | none => none
  | [] => none

/-- The chunk of a FACE_DATA after its handle: a two-byte count and 1 to 2,044 bytes (R34 check 2). -/
def chunkBody : List Byte → Option (List Byte)
  | a :: b :: chunk =>
    if chunk.length = be16 a b ∧ 1 ≤ chunk.length ∧ chunk.length ≤ Config.maxChunk then some chunk else none
  | _ => none

/-- An optional field read: whether the presence byte is sound, and the field's bytes. -/
inductive OptField where
  | absent
  | present (l : List Byte)
  | badLength
  | badPresence
  deriving DecidableEq, Repr

/-- An optional field of `n` bytes at the end of a body (R211). A body of neither of the two lengths is of a
wrong length whatever its presence byte; in one of a sound length a presence byte that is neither 0 nor 1 is a value out of
range (log entry 10, DESIGN CHOICE). -/
def optField (n : Nat) : List Byte → OptField
  | [] => .badLength
  | b :: l =>
    if b = 0 then (if l = [] then .absent else .badLength)
    else if b = 1 then (if l.length = n then .present l else .badLength)
    else if l = [] ∨ l.length = n then .badPresence else .badLength

/-- The body of FILTER_SET (R45). -/
structure FilterBody where
  filter  : Nat
  value   : Key
  mask    : Key
  ink     : Byte
  sides   : Byte
  pattern : List Byte
  compare : Nat
  cls     : Nat
  deriving DecidableEq, Repr

/-- A FILTER_SET body with a pattern of 0 to 8 bytes and an agreeing length (R45 check 2). -/
def filterBody : List Byte → Option FilterBody
  | f :: v3 :: v2 :: v1 :: v0 :: m3 :: m2 :: m1 :: m0 :: ink :: sides :: n :: rest =>
    if 8 < n.toNat then none
    else match rest.drop n.toNat with
      | [compare, cls] =>
        some { filter := f.toNat, value := BitVec.ofNat 32 (be32 v3 v2 v1 v0),
               mask := BitVec.ofNat 32 (be32 m3 m2 m1 m0), ink, sides, pattern := rest.take n.toNat,
               compare := compare.toNat, cls := cls.toNat }
      | _ => none
  | _ => none

/-- The ink requirement of a code. -/
def inkReq? (b : Byte) : Option InkReq :=
  match b.toNat with
  | 0 => some .any
  | 1 => some .mono
  | 2 => some .color
  | _ => none

/-- The sides requirement of a code. -/
def sidesReq? (b : Byte) : Option SidesReq :=
  match b.toNat with
  | 0 => some .any
  | 1 => some .simplex
  | 2 => some .duplex
  | _ => none

/-- The body of PRESS_SET (R63). -/
structure PressSetBody where
  press       : Nat
  classes     : List Nat
  color       : Bool
  duplex      : Bool
  grades      : Byte
  zone        : Nat
  linkTimeout : Nat
  stallTime   : Nat
  unbindTime  : Nat
  checkpoint  : Nat
  deriving DecidableEq, Repr

/-- A PRESS_SET body with 1 to 4 served classes and an agreeing length (R63 check 2). -/
def pressSetBody : List Byte → Option PressSetBody
  | p :: n :: rest =>
    if n.toNat = 0 ∨ 4 < n.toNat then none
    else match rest.drop n.toNat with
      | [color, duplex, grades, zone, t1, t0, stall, u1, u0, c1, c0] =>
        some { press := p.toNat, classes := (rest.take n.toNat).map BitVec.toNat, color := yes color,
               duplex := yes duplex, grades, zone := zone.toNat, linkTimeout := be16 t1 t0, stallTime := stall.toNat,
               unbindTime := be16 u1 u0, checkpoint := be16 c1 c0 }
      | _ => none
  | _ => none

/-- Class numbers as classes, when every one is 0 to 7. -/
def classesOf : List Nat → Option (List (Fin 8))
  | [] => some []
  | n :: l =>
    match toFin? 8 n, classesOf l with
    | some c, some r => some (c :: r)
    | _, _ => none

/-- The profile of a PRESS_SET, when its values are in range (R63 check 5). -/
def PressSetBody.profile (b : PressSetBody) : Option Profile :=
  match classesOf b.classes, toFin? 4 b.zone with
  | some classes, some zone =>
    if classes.Nodup ∧ b.grades ≠ 0 ∧ 100 ≤ b.linkTimeout ∧ b.linkTimeout ≤ 10000 ∧ 1 ≤ b.stallTime ∧
        b.stallTime ≤ 120 ∧ b.unbindTime ≤ 3600 ∧ 1 ≤ b.checkpoint ∧ b.checkpoint ≤ 1000 then
      some { classes, caps := ⟨b.color, b.duplex, b.grades⟩, zone, linkTimeout := b.linkTimeout,
             stallTime := b.stallTime, unbindTime := b.unbindTime, checkpoint := b.checkpoint }
    else none
  | _, _ => none

/-- The fixed length of PLAN_SET (R115): plan, 8 rows of four prices, three thresholds, three rates, job minimum. -/
def planLength : Nat := 85

/-- The grade row at its place in a PLAN_SET body. -/
def planRow (l : List Byte) (g : Fin 8) : PriceRow :=
  ⟨half l (1 + 8 * g.val), half l (3 + 8 * g.val), half l (5 + 8 * g.val), half l (7 + 8 * g.val)⟩

/-- The plan a PLAN_SET body carries, its rates as sent. -/
def planBody (l : List Byte) : Plan :=
  { rows := Vector.ofFn (planRow l), t1 := word l 65, t2 := word l 69, t3 := word l 73, d1 := half l 77,
    d2 := half l 79, d3 := half l 81, minimum := half l 83 }

/-- Among thresholds, those that are not 0 ascend strictly (R115 check 5). -/
def ascends (l : List Nat) : Bool := decide ((l.filter fun t => decide (t ≠ 0)).Pairwise (· < ·))

/-- A face described in CHARGE_QUOTE: ink and coverage. -/
structure QuoteFace where
  ink      : Byte
  coverage : Nat
  deriving DecidableEq, Repr

/-- The faces of a CHARGE_QUOTE, two bytes each; none when a byte is left over. -/
def quoteFaces : List Byte → Option (List QuoteFace)
  | [] => some []
  | i :: c :: l => (quoteFaces l).map (⟨i, c.toNat⟩ :: ·)
  | [_] => none

/-- The source of a CHARGE_QUOTE (R125). -/
inductive QuoteSource where
  | account (n : Nat)
  | plan (n q : Nat)
  deriving DecidableEq, Repr

/-- The body of CHARGE_QUOTE (R125). -/
structure QuoteBody where
  source : QuoteSource
  grade  : Nat
  faces  : List QuoteFace
  deriving DecidableEq, Repr

/-- Grade, face count and faces after the source of a CHARGE_QUOTE. -/
def quoteRest (source : QuoteSource) : List Byte → Option QuoteBody
  | g :: n :: rest =>
    match quoteFaces rest with
    | some l => if l.length = n.toNat then some { source, grade := g.toNat, faces := l } else none
    | none => none
  | _ => none

/-- What a CHARGE_QUOTE body reads as: a sound length, a wrong one, or a source form that is neither (R125). -/
inductive QuoteParse where
  | ok (b : QuoteBody)
  | badLength
  | badSource
  deriving DecidableEq, Repr

/-- A CHARGE_QUOTE body (R125 checks 2 and 3 on the source form). A source form that is neither has no length to agree
with: below 4 bytes after it, the least that any source form takes, the length is wrong, and otherwise the value: log entry
34 (DESIGN CHOICE). -/
def quoteBody : List Byte → QuoteParse
  | [] => .badLength
  | src :: l =>
    match src.toNat, l with
    | 0, a1 :: a0 :: rest =>
      match quoteRest (.account (be16 a1 a0)) rest with
      | some b => .ok b
      | none => .badLength
    | 1, p :: q3 :: q2 :: q1 :: q0 :: rest =>
      match quoteRest (.plan p.toNat (be32 q3 q2 q1 q0)) rest with
      | some b => .ok b
      | none => .badLength
    | 0, _ => .badLength
    | 1, _ => .badLength
    | _, _ => if l.length < 4 then .badLength else .badSource

/-- The presses of a two-byte press set; an empty set selects all 16 (R149, R159). -/
def pressSetOf (n : Nat) : List (Fin 16) :=
  if n = 0 then List.finRange 16 else (List.finRange 16).filter fun p => n.testBit p.val

/-- The kinds of a two-byte kind set; an empty set names all eleven (R177). Bits 11 to 15 stand for no kind and are
ignored, also where no other is set: log entry 32 (DESIGN CHOICE). -/
def kindSetOf (n : Nat) : List AlertKind :=
  if n % 2048 = 0 then AlertKind.all else AlertKind.all.filter fun k => n.testBit k.code.val

end Sys2Proof.Machine
end

