-- ==== Sys2Proof/Machine/Ops.lean ====
section
/-! DEFINITION. The operations every block shares: notices and attention (R200, R201), pending marks (R148), frames to a
press (R81), replies (R197 to R199), and the free choices. -/

namespace Sys2Proof.Machine

/-! ### Free choices (log entry 5) -/

/-- The elements of a list in an order that the free choices set; a list of one takes no choice. -/
def shuffle : Nat → List α → Nat → List α × Nat
  | 0, l, c => (l, c)
  | _, [], c => ([], c)
  | _, [x], c => ([x], c)
  | f + 1, x :: y :: l, c =>
    let i := Config.freeChoice c % (l.length + 2)
    let (rest, c') := shuffle f ((x :: y :: l).eraseIdx i) (c + 1)
    ((x :: y :: l).getD i x :: rest, c')

/-- Presses in the order in which they reach what they share, which the manual leaves open. -/
def State.inAnyOrder (s : State) (l : List (Fin 16)) : List (Fin 16) × State :=
  let (r, c) := shuffle l.length l s.choices
  (r, { s with choices := c })

/-- A number from 0 to `n` that the manual leaves open; from 0 to 0 there is no choice. -/
def State.anyUpTo (s : State) (n : Nat) : Nat × State :=
  if n = 0 then (0, s) else (Config.freeChoice s.choices % (n + 1), { s with choices := s.choices + 1 })

/-! ### Notices and attention (R200, R201) -/

/-- Drive ATTN# afresh. -/
def Mlc.drive (m : Mlc) : Mlc := { m with attn := attnOf m.pendingFlags m.mask }

/-- A notice joins the tail or is dropped, and its kind's pending flag is set either way (R200). -/
def Mlc.enqueue (n : Notice) (m : Mlc) : Mlc :=
  Mlc.drive
    (if m.notices.length < Config.noticeCapacity
      then { m with notices := m.notices ++ [n], pendingFlags := m.pendingFlags ||| n.kind.bit }
      else { m with overflow := true, pendingFlags := m.pendingFlags ||| n.kind.bit })

/-- A notice detail shorter than 4 bytes is filled to 4 bytes with 0x00 bytes (R211). -/
def padDetail (l : List Byte) : List Byte := l ++ List.replicate (4 - l.length) 0

/-- Queue a notice with the TB time of the event. -/
def State.notice (kind : NoticeKind) (subtype object : Nat) (detail : List Byte) (s : State) : State :=
  s.mapMlc (Mlc.enqueue { kind, subtype, object, time := s.tb, detail := padDetail detail })

/-! ### Pending marks of the meter store (R148) -/

/-- Change the mark of one press. -/
def State.mapMark (p : Fin 16) (f : Mark → Mark) (s : State) : State :=
  s.mapStore fun st => { st with marks := st.marks.set p (f st.marks[p]) }

/-- A pending mark: it sets the flag and leaves the forced attribute. -/
def State.markPending (p : Fin 16) (s : State) : State := s.mapMark p fun m => { m with pending := true }

/-- A forced mark sets both. -/
def State.markForced (p : Fin 16) (s : State) : State := s.mapMark p fun _ => { pending := true, forced := true }

/-- Pending marks on every press of a list. -/
def State.markAll (l : List (Fin 16)) (s : State) : State := l.foldl (fun s p => s.markPending p) s

/-! ### Frames to a press (R80, R81) -/

/-- The frame is sent after those before it. -/
def State.send (p : Fin 16) (f : FeedFrame) (s : State) : State :=
  s.mapPress p fun pr => { pr with out := pr.out ++ [f] }

/-! ### Replies (R197 to R199) -/

/-- The status codes (R199). -/
inductive Status where
  | ok | unknown | length | value | mode | state | none | full | spool | funds | route | enabled | abandoned
  deriving DecidableEq, Repr

/-- The value of a status code (R199). -/
def Status.code : Status → Byte
  | .ok => 0x00
  | .unknown => 0x01
  | .length => 0x02
  | .value => 0x03
  | .mode => 0x04
  | .state => 0x05
  | .none => 0x06
  | .full => 0x07
  | .spool => 0x08
  | .funds => 0x09
  | .route => 0x0A
  | .enabled => 0x0B
  | .abandoned => 0x0C

/-- The code of a mode (R210). -/
def Mode.code : Mode → Nat
  | .setup => 0
  | .run => 1
  | .quiescing => 2

/-- The mode byte of the summary: bit 7 is set during the start-up scan (R210). -/
def State.modeByte (s : State) : Byte :=
  BitVec.ofNat 8 (s.mlc.mode.code + if s.scanning then 0x80 else 0)

/-- The flags byte of the summary: bit 0 OVERFLOW, bit 1 LOST_REQUEST (R210). -/
def Mlc.flagsByte (m : Mlc) : Byte :=
  BitVec.ofNat 8 ((if m.overflow then 1 else 0) + if m.lostRequest then 2 else 0)

/-- The 4-byte summary as the reply is queued (R199, R210). -/
def State.summary (s : State) : List Byte :=
  [s.modeByte, BitVec.ofNat 8 s.mlc.notices.length, s.mlc.flagsByte, s.mlc.pendingFlags]

/-- Build the reply to a request and queue it; the lost-request flag is cleared as it is queued (R197, R198). -/
def State.reply (typ tag : Byte) (st : Status) (body : List Byte) (s : State) : State :=
  s.mapMlc fun m =>
    { m with
      replies := m.replies ++ [{ typ := typ + 0x80, tag, body := st.code :: (s.summary ++ body) }]
      lostRequest := false }

/-- What the owner of a request answers: a status, the reply body after the summary, and the state. -/
structure Answer where
  status : Status
  body   : List Byte
  state  : State
  deriving DecidableEq, Repr

/-- A refusal: it changes nothing (R199). -/
def refuse (st : Status) (s : State) : Answer := { status := st, body := [], state := s }

/-- An acceptance with its reply body. -/
def accept (body : List Byte) (s : State) : Answer := { status := .ok, body, state := s }

/-- A request is dropped: it has no effect and draws no reply, and the lost-request flag is set (R197). -/
def State.dropRequest (s : State) : State := s.mapMlc fun m => { m with lostRequest := true }

/-- A request at the message link controller (R197): dropped when 8 replies wait; refused MODE during the start-up scan
unless it is one that the scan allows; otherwise handled by its owner, whose answer becomes the reply. -/
def takeRequest (typ tag : Byte) (inScan : Bool) (own : State → Answer) (s : State) : State :=
  if Config.replyCapacity ≤ s.mlc.replies.length then s.dropRequest
  else if s.scanning && !inScan then s.reply typ tag .mode []
  else
    let a := own s
    a.state.reply typ tag a.status a.body

end Sys2Proof.Machine
end

