-- ==== Sys2Proof/Machine/Spool.lean ====
section
/-! DEFINITION. The spool memory manager's operations (chapter 2): allocation, storing at the write position, abandoning
an open sheet, reading face data back, and freeing a job's chain. -/

namespace Sys2Proof.Machine

/-- Change what the SMM keeps for one slot. -/
def Smm.mapSlot (i : Fin 64) (f : SlotSpool → SlotSpool) (m : Smm) : Smm :=
  { m with slots := m.slots.set i (f m.slots[i]) }

/-- The chain position of an extent, from the extent table (R25). -/
def Smm.positionOf (m : Smm) (e : Nat) : Nat :=
  match m.owners.find? fun x => decide (x.1 = e) with
  | some x => x.2.position
  | none => 0

/-- Take the extent at the head of the free list, append it to the job's chain and mark it owned there (R27). -/
def Smm.allocate (h : Handle) (m : Smm) : Smm :=
  match m.free with
  | [] => m
  | e :: rest =>
    { m with
      free := rest
      owners := m.owners ++ [(e, { handle := h, position := m.slots[h.slot].chain.length })]
      slots := m.slots.set h.slot { m.slots[h.slot] with chain := m.slots[h.slot].chain ++ [e] } }

/-- Whether the chain reaches the write position. -/
def SlotSpool.reachesWrite (sp : SlotSpool) : Bool := decide (sp.wpos.pos < sp.chain.length)

/-- Allocate when the chain does not reach the write position (R27). -/
def Smm.ensure (h : Handle) (m : Smm) : Smm :=
  if m.slots[h.slot].reachesWrite then m else m.allocate h

/-- The write position advanced by one byte (R27). -/
def WritePos.advance (w : WritePos) : WritePos :=
  if w.off + 1 = Config.extentBytes then ⟨w.pos + 1, 0⟩ else ⟨w.pos, w.off + 1⟩

/-- The extent at a chain position. -/
def SlotSpool.extentAt (sp : SlotSpool) (pos : Nat) : Nat := sp.chain.getD pos 0

/-- The spool address of a write position (R24: extent e begins at e × 65,536). -/
def SlotSpool.addressAt (sp : SlotSpool) (w : WritePos) : Nat := sp.extentAt w.pos * Config.extentBytes + w.off

/-- Store one byte at the job's write position (R27). -/
def Smm.storeByte (h : Handle) (m : Smm) (b : Byte) : Smm :=
  let m := m.ensure h
  let sp := m.slots[h.slot]
  { m with
    mem := Memory.write Config.unwrittenByte m.mem (sp.addressAt sp.wpos) b
    slots := m.slots.set h.slot { sp with wpos := sp.wpos.advance } }

/-- Whether storing `n` bytes needs an extent that the chain does not have (R27, R34 check 6). -/
def SlotSpool.needsExtent (sp : SlotSpool) (n : Nat) : Bool :=
  decide (sp.chain.length ≤ (sp.wpos.pos * Config.extentBytes + sp.wpos.off + n - 1) / Config.extentBytes)

/-- Change sheet record `n` of a slot (records are numbered from 1). -/
def Smm.mapSheet (i : Fin 64) (n : Nat) (f : SheetRecord → SheetRecord) (m : Smm) : Smm :=
  m.mapSlot i fun sp => { sp with sheets := sp.sheets.modify (n - 1) f }

/-- Sheet record `n` of a slot. -/
def Smm.sheet? (m : Smm) (i : Fin 64) (n : Nat) : Option SheetRecord := m.slots[i].sheets[n - 1]?

/-- The declared total of a sheet: the sum of its face lengths (R32). -/
def SheetRecord.total (r : SheetRecord) : Nat :=
  r.face1.length + match r.face2 with
    | some f => f.length
    | none => 0

/-- The number of faces of a sheet. -/
def SheetRecord.faces (r : SheetRecord) : Nat := if r.face2.isSome then 2 else 1

/-- Where the next byte of a job will land, once an extent it needs is allocated (R29). -/
def SlotSpool.startHere (sp : SlotSpool) : StartPos := ⟨sp.extentAt sp.wpos.pos, sp.wpos.off⟩

/-- Store a whole chunk for open sheet `n` (R35): the bytes at the write position in order, the start position with the
first byte of face 1, and the received count. -/
def Smm.storeChunk (h : Handle) (n : Nat) (chunk : List Byte) (m : Smm) : Smm :=
  let m := m.ensure h
  let start := m.slots[h.slot].startHere
  let m := chunk.foldl (Smm.storeByte h) m
  m.mapSheet h.slot n fun r =>
    { r with received := r.received + chunk.length, start := if r.received = 0 then some start else r.start }

/-- The write position to which abandoning a sheet returns (R33). -/
def Smm.abandonPos (m : Smm) (i : Fin 64) (r : SheetRecord) : WritePos :=
  match r.start with
  | some st => ⟨m.positionOf st.extent, st.offset⟩
  | none => m.slots[i].wpos

/-- Drop the record of open sheet `n` and return the write position to where it began (R33). -/
def Smm.abandon (i : Fin 64) (n : Nat) (m : Smm) : Smm :=
  match m.sheet? i n with
  | some r => m.mapSlot i fun sp => { sp with wpos := m.abandonPos i r, sheets := sp.sheets.take (n - 1) }
  | none => m

/-- Free a job's spool (R40): its chain to the tail of the free list in chain order, its extents free in the table, the
chain empty, the write position at 0, 0, and no sheet records. -/
def Smm.freeChain (i : Fin 64) (m : Smm) : Smm :=
  { m with
    free := m.free ++ m.slots[i].chain
    owners := m.owners.filter fun x => !m.slots[i].chain.contains x.1
    slots := m.slots.set i SlotSpool.empty }

/-- The byte of a sheet at an offset from its start, found by following the chain (R29, R39). -/
def Smm.readSheetByte (m : Smm) (i : Fin 64) (st : StartPos) (k : Nat) : Byte :=
  let at_ := st.offset + k
  let e := m.slots[i].extentAt (m.positionOf st.extent + at_ / Config.extentBytes)
  Memory.read Config.unwrittenByte m.mem (e * Config.extentBytes + at_ % Config.extentBytes)

/-- A block of a sheet's bytes (R39); a sheet with no start position has no bytes. -/
def Smm.readBlock (m : Smm) (i : Fin 64) (r : SheetRecord) (b : Nat × Nat) : List Byte :=
  match r.start with
  | some st => (List.range b.2).map fun k => m.readSheetByte i st (b.1 + k)
  | none => []

/-- The blocks of one face, each an offset from the sheet's start and a length: 1,024 bytes, the last what remains of the
face (R80). -/
def faceBlocks (base len : Nat) : List (Nat × Nat) :=
  (List.range ((len + Config.blockBytes - 1) / Config.blockBytes)).map fun i =>
    (base + i * Config.blockBytes, min Config.blockBytes (len - i * Config.blockBytes))

/-- The blocks of a sheet: face 1 then face 2, none with bytes of two faces (R80). -/
def SheetRecord.blocks (r : SheetRecord) : List (Nat × Nat) :=
  faceBlocks 0 r.face1.length ++ match r.face2 with
    | some f => faceBlocks r.face1.length f.length
    | none => []

/-! ### Jobs -/

/-- Change the job in a slot. -/
def State.mapJob (i : Fin 64) (f : Job → Job) (s : State) : State :=
  s.mapSlot i fun sl => { sl with job := sl.job.map f }

/-- Abandon the job's open sheet, if it has one (R33). -/
def State.abandonOpen (i : Fin 64) (s : State) : State :=
  match s.jobs[i].job.bind Job.openSheet with
  | some n => (s.mapSmm (Smm.abandon i n)).mapJob i fun j => { j with openSheet := none }
  | none => s

/-! ### Frames between those of a transmission (R80, R81) -/

/-- The SHEET_DATA frames of a transmission from block `k` on, `n` of them. -/
def State.dataFrames (s : State) (t : Transmission) (k n : Nat) : List FeedFrame :=
  match s.smm.sheet? t.slot t.sheet with
  | some r => ((r.blocks.drop k).take n).map fun b => .sheetData t.tag (s.smm.readBlock t.slot r b)
  | none => []

/-- The SHEET_DATA frames still to go out in a transmission. -/
def State.dataLeft (s : State) (t : Transmission) : Nat :=
  match s.smm.sheet? t.slot t.sheet with
  | some r => r.blocks.length - t.sent
  | none => 0

/-- Send the next `n` SHEET_DATA frames of the transmission in progress. -/
def State.sendData (p : Fin 16) (t : Transmission) (n : Nat) (s : State) : State :=
  s.mapPress p fun pr =>
    { pr with out := pr.out ++ s.dataFrames t t.sent n, tx := some { t with sent := t.sent + n } }

/-- How far the transmission in progress has come when another frame is needed: the manual does not say, so some number
of its SHEET_DATA frames have gone out by then (R81; log entry 5). -/
def State.advanceTx (p : Fin 16) (s : State) : State :=
  match s.presses[p].tx with
  | some t =>
    let (n, s') := s.anyUpTo (s.dataLeft t)
    s'.sendData p t n
  | none => s

/-- Send a frame after the frame then being sent (R81, R106). -/
def State.sendBetween (p : Fin 16) (f : FeedFrame) (s : State) : State := (s.advanceTx p).send p f

/-- Stop the transmission in progress after the frame then being sent (R80). -/
def State.stopTx (p : Fin 16) (s : State) : State :=
  (s.advanceTx p).mapPress p fun pr => { pr with tx := none }

end Sys2Proof.Machine
end

