-- ==== Sys2Proof/Machine/Queues.lean ====
section
/-! DEFINITION. The routing unit's operations (chapter 3): the four matching tests, the choice of a filter, and the
insertions and removals of class queues with the queue events they report. -/

namespace Sys2Proof.Machine

/-! ### Matching (R48 to R50) -/

/-- The key test: the compared bits agree (R48). -/
def Filter.keyTest (f : Filter) (key : Key) : Bool := decide (key &&& f.mask = f.value &&& f.mask)

/-- The ink test (R48). -/
def InkReq.test : InkReq → Ink → Bool
  | .any, _ => true
  | .mono, .mono => true
  | .color, .color => true
  | _, _ => false

/-- The sides test (R48). -/
def SidesReq.test : SidesReq → Sides → Bool
  | .any, _ => true
  | .simplex, .simplex => true
  | .duplex, .duplex => true
  | _, _ => false

/-- The label test: the first bytes of label and pattern agree, as many as the compare length and the label allow
(R49). -/
def Filter.labelTest (f : Filter) (label : List Byte) : Bool :=
  decide (label.take f.compare = f.pattern.take (min f.compare label.length))

/-- An enabled filter that passes all four tests (R50). -/
def Filter.matchesJob (f : Filter) (key : Key) (ink : Ink) (sides : Sides) (label : List Byte) : Bool :=
  f.enabled && f.keyTest key && f.ink.test ink && f.sides.test sides && f.labelTest label

/-- The lowest-numbered enabled filter that matches (R50). -/
def Ru.route (r : Ru) (key : Key) (ink : Ink) (sides : Sides) (label : List Byte) : Option (Fin 32) :=
  (List.finRange 32).find? fun i => r.filters[i].matchesJob key ink sides label

/-! ### Class queues (R51 to R55) -/

/-- An urgent job goes directly behind the last urgent job, or to the head when there is none (R52). -/
def insertUrgent (e : QueueEntry) : List QueueEntry → List QueueEntry
  | [] => [e]
  | x :: l => if (x :: l).any QueueEntry.urgent then x :: insertUrgent e l else e :: x :: l

/-- The place of a job inserted by JOB_OPEN or JOB_CLOSE (R52). -/
def placeEntry (e : QueueEntry) (l : List QueueEntry) : List QueueEntry :=
  if e.urgent then insertUrgent e l else l ++ [e]

/-- Change one class queue's entries. -/
def Ru.mapEntries (c : Fin 8) (f : List QueueEntry → List QueueEntry) (r : Ru) : Ru :=
  { r with queues := r.queues.set c { r.queues[c] with entries := f r.queues[c].entries } }

/-- A queue event of a class is reported to the engines (R55). -/
def Ru.report (c : Fin 8) (r : Ru) : Ru := { r with reports := r.reports ++ [c] }

/-- Insert by the urgent rule (R52); an insertion is a queue event (R55). -/
def Ru.insert (c : Fin 8) (e : QueueEntry) (r : Ru) : Ru := (r.mapEntries c (placeEntry e)).report c

/-- Return a job to the head (R53); an insertion is a queue event. -/
def Ru.insertHead (c : Fin 8) (e : QueueEntry) (r : Ru) : Ru := (r.mapEntries c (e :: ·)).report c

/-- Remove a job from wherever it stands (R54); a removal that leaves a different job at the head of a queue still not
empty is a queue event (R55). -/
def Ru.remove (c : Fin 8) (h : Handle) (r : Ru) : Ru :=
  let before := r.queues[c].entries
  let after := before.filter fun e => decide (e.handle ≠ h)
  let r := r.mapEntries c fun _ => after
  if after.head?.isSome && decide (after.head? ≠ before.head?) then r.report c else r

end Sys2Proof.Machine
end

