-- ==== Sys2Proof/Machine/Alerts.lean ====
section
/-! DEFINITION. The alert unit's raises and condition ends (chapter 9), the zone controller's derivation of patterns
(chapter 10), and the beginning of a hold at the feed engine (R106). -/

namespace Sys2Proof.Machine

/-! ### Feed condition and unbind timer -/

/-- Derive the feed condition again (R96) and start, keep or stop the unbind timer by it (R104). -/
def Press.refresh (mode : Mode) (now : Time) (pr : Press) : Press :=
  let pr := { pr with cond := pr.deriveCond mode }
  { pr with
    unbindDeadline :=
      if pr.unbindRuns then some (pr.unbindDeadline.getD (now + secs (pr.runUnbind.getD 0))) else none }

/-- Derive a press's feed condition and unbind timer again. -/
def State.refresh (p : Fin 16) (s : State) : State := s.mapPress p (Press.refresh s.mlc.mode s.tb)

/-- Hold begun (R106): the engine sets its held flag, sends PAUSE, marks the press pending (R148) and shows STOPPED. -/
def State.holdBegun (p : Fin 16) (s : State) : State :=
  (((s.mapPress p fun pr => { pr with held := true }).sendBetween p .pause).markPending p).refresh p

/-! ### Zones (R187, R188) -/

/-- A zone record with a pattern derived again: a blinking pattern that was another before starts its phase now, the same
pattern leaves the phase alone, and a pattern that does not blink has none (R188). -/
def Zone.derive (now : Time) (pat : Pattern) (z : Zone) : Zone :=
  if z.pattern = pat then z else { z with pattern := pat, phase := if pat.blinks then some now else none }

/-- Derive a zone's pattern from its members' entries (R187). -/
def State.derivePattern (z : Fin 4) (s : State) : State :=
  s.mapZone z (Zone.derive s.tb (patternOf (s.zoneEntries z)))

/-- The alert unit hands a change of a press's entries to the zone controller (R169). -/
def State.handToZone (p : Fin 16) (s : State) : State := s.derivePattern s.presses[p].profile.zone

/-! ### Entries -/

/-- Set a press's entry of a kind. -/
def State.setEntry (p : Fin 16) (k : AlertKind) (e : Option AlertEntry) (s : State) : State :=
  s.mapAu fun au => { au with tables := au.tables.set p (au.tables[p].set k.code e) }

/-- An entry after its condition has ended (R174): by its mode as raised and its state. -/
def AlertEntry.ended (now : Time) (e : AlertEntry) : AlertEntry :=
  match e.state with
  | .active =>
    match e.mode with
    | .retry => { e with state := .retryWait, deadline := some (now + secs e.retry) }
    | _ => { e with state := .clearWait }
  | _ => e

/-- An entry of a momentary kind has its condition end in the event of its raise (R173). -/
def AlertEntry.settled (k : AlertKind) (now : Time) (e : AlertEntry) : AlertEntry :=
  if k.momentary then e.ended now else e

/-- A new entry (R171). -/
def AlertEntry.create (row : ModeRow) (detail : Byte) (now : Time) : AlertEntry :=
  { mode := row.mode, retry := row.retry, state := .active, detail, raisedAt := now, occurrences := 1,
    deadline := none, acked := false }

/-- A re-raised entry (R172): one more occurrence, the new detail, ACTIVE, no deadline, not acknowledged. -/
def AlertEntry.reraise (detail : Byte) (e : AlertEntry) : AlertEntry :=
  { e with
    occurrences := satAdd 255 e.occurrences 1, detail, state := .active, deadline := none, acked := false }

/-- The alert unit's answer to a raise (R171). -/
inductive RaiseOutcome where
  | created | reraised | dropped
  deriving DecidableEq, Repr

/-- The detail of a RAISED notice (R182). -/
def raisedDetail (k : AlertKind) (e : AlertEntry) (held : Bool) : List Byte :=
  u8 k.code.val ++ u8 e.mode.code ++ [e.detail] ++ u8 e.state.code ++ flag held

/-- The detail of a REPEATED notice (R182). -/
def repeatedDetail (k : AlertKind) (e : AlertEntry) (held : Bool) : List Byte :=
  u8 k.code.val ++ u8 e.mode.code ++ [e.detail] ++ u8 e.occurrences ++ u8 e.state.code ++ flag held

/-- The detail of an ENDED notice (R182): the retry deadline when the new state is RETRY_WAIT. -/
def endedDetail (k : AlertKind) (e : AlertEntry) : List Byte :=
  u8 k.code.val ++ [e.detail] ++ u8 e.state.code ++ opt timeBytes e.deadline

/-- A raise that creates an entry (R171): the entry, hold begun when due, the zone, the condition end of a momentary kind,
and the notice. -/
def State.raiseNew (p : Fin 16) (k : AlertKind) (e : AlertEntry) (s : State) : State :=
  let begins := e.holds && !tableHolds s.au.tables[p]
  let s := s.setEntry p k (some e)
  let s := if begins then s.holdBegun p else s
  let e' := e.settled k s.tb
  let s := (s.setEntry p k (some e')).handToZone p
  s.notice .alert 0 p.val (raisedDetail k e' (tableHolds s.au.tables[p]))

/-- A raise of a kind that has an entry (R172). -/
def State.raiseAgain (p : Fin 16) (k : AlertKind) (e : AlertEntry) (detail : Byte) (s : State) : State :=
  let e' := (e.reraise detail).settled k s.tb
  let s := (s.setEntry p k (some e')).handToZone p
  s.notice .alert 1 p.val (repeatedDetail k e' (tableHolds s.au.tables[p]))

/-- A raise at the alert unit, with its answer (R171). -/
def State.raise (p : Fin 16) (k : AlertKind) (detail : Byte) (s : State) : State × RaiseOutcome :=
  if s.au.modes[k.code].mode = .ignore then (s, .dropped)
  else
    match s.entry p k with
    | none => (s.raiseNew p k (AlertEntry.create s.au.modes[k.code] detail s.tb), .created)
    | some e => (s.raiseAgain p k e detail, .reraised)

/-- A raise whose answer the engine does not use. -/
def State.alert (p : Fin 16) (k : AlertKind) (detail : Byte) (s : State) : State := (s.raise p k detail).1

/-- The entry with the detail of a condition end, when it carries one (R174). -/
def AlertEntry.withDetail (detail : Option Byte) (e : AlertEntry) : AlertEntry :=
  { e with detail := detail.getD e.detail }

/-- A condition end (R174, R175): the detail replaces the entry's, an ACTIVE entry moves on, and a change of state is
handed to the zone controller and reported for a kind that is not momentary. -/
def State.conditionEnd (p : Fin 16) (k : AlertKind) (detail : Option Byte) (s : State) : State :=
  match s.entry p k with
  | none => s
  | some e =>
    let e' := (e.withDetail detail).ended s.tb
    let s' := s.setEntry p k (some e')
    if e'.state = e.state then s'
    else
      let s' := s'.handToZone p
      if k.momentary then s' else s'.notice .alert 2 p.val (endedDetail k e')

/-- The PROTOCOL details (R70). -/
inductive ProtocolError where
  | badCheck | badFrame | unknownTag
  deriving DecidableEq, Repr

/-- Code of a PROTOCOL detail. -/
def ProtocolError.code : ProtocolError → Byte
  | .badCheck => 0
  | .badFrame => 1
  | .unknownTag => 2

/-- Raise PROTOCOL on a press. -/
def State.protocol (p : Fin 16) (e : ProtocolError) (s : State) : State := s.alert p .protocol e.code

/-! ### The stall watch (R102, R103) -/

/-- The watch set to the oldest entry with a time taken; a watch that stays the same keeps what the alert unit answered. -/
def Press.rewatch (pr : Press) : Press :=
  { pr with
    watch := (watchOf (pr.runStall.getD 0) pr.path).map fun w =>
      match pr.watch with
      | some o => if o.tag = w.tag ∧ o.deadline = w.deadline then o else w
      | none => w }

/-- Raise STALL for the watched entry and record its tag, unless the raise was dropped (R102). -/
def State.raiseStall (p : Fin 16) (tag : Half) (s : State) : State :=
  let (s', out) := s.raise p .stall 0
  if out = .dropped then
    s'.mapPress p fun pr => { pr with watch := pr.watch.map fun w => { w with dropped := true } }
  else s'.mapPress p fun pr => { pr with stalledTag := some tag }

/-- Whether the stall watch is due: its deadline reached, no stalled tag, and its raise not dropped before. -/
def State.stallDue (s : State) (p : Fin 16) : Option Half :=
  match s.presses[p].watch with
  | some w =>
    if reached s.tb w.deadline && s.presses[p].stalledTag.isNone && !w.dropped then some w.tag else none
  | none => none

/-- The stall watch after an entry has left the path (R103): the STALL condition ends when it was the stalled one, the
watch moves to the oldest remaining entry with a time taken, and a deadline already reached raises STALL at once. -/
def State.stallAfterLeave (p : Fin 16) (wasStalled : Bool) (s : State) : State :=
  let s := if wasStalled then
      (s.conditionEnd p .stall none).mapPress p fun pr => { pr with stalledTag := none }
    else s
  let s := s.mapPress p Press.rewatch
  match s.stallDue p with
  | some tag => s.raiseStall p tag
  | none => s

end Sys2Proof.Machine
end

