-- ==== Sys2Proof/Machine/Charge.lean ====
section
/-! DEFINITION. The meter unit's operations: the five pricing stages (chapter 6), reservation, settlement, release,
availability events and the job minimum (chapter 7), and the counting on the press meters (chapter 8). -/

namespace Sys2Proof.Machine

/-! ### The five stages (R119 to R122) -/

/-- Stage 1: the price of a face on a grade row (R119). -/
def facePrice (r : PriceRow) (ink : Ink) (coverage : Nat) : Nat :=
  match ink with
  | .mono => r.mono
  | .color => r.base + r.rate * coverage

/-- Ink and coverage of a face as priced. -/
abbrev PricedFace := Ink × Nat

/-- The price of an optional second face. -/
def facePrice? (r : PriceRow) : Option PricedFace → Nat
  | some f => facePrice r f.1 f.2
  | none => 0

/-- Stage 2: paper and face prices (R120). -/
def grossPrice (r : PriceRow) (f1 : PricedFace) (f2 : Option PricedFace) : Nat :=
  r.paper + facePrice r f1.1 f1.2 + facePrice? r f2

/-- Stage 3: the largest tier whose threshold is not 0 and is reached (R121), 0 when none. -/
def Plan.tier (pl : Plan) (q : Nat) : Nat :=
  if pl.t3 ≠ 0 ∧ pl.t3 ≤ q then 3
  else if pl.t2 ≠ 0 ∧ pl.t2 ≤ q then 2
  else if pl.t1 ≠ 0 ∧ pl.t1 ≤ q then 1
  else 0

/-- The discount rate of a tier (R121). -/
def Plan.rateOf (pl : Plan) (k : Nat) : Nat :=
  match k with
  | 1 => pl.d1
  | 2 => pl.d2
  | 3 => pl.d3
  | _ => 0

/-- Stage 4: the discount, rounded down (R122). -/
def discountOf (gross rate : Nat) : Nat := gross * rate / 1000

/-- The net charge of a sheet: the five stages (R119 to R122). -/
def Plan.charge (pl : Plan) (grade : Fin 8) (f1 : PricedFace) (f2 : Option PricedFace) (q : Nat) : Nat :=
  let gross := grossPrice pl.rows[grade] f1 f2
  gross - discountOf gross (pl.rateOf (pl.tier q))

/-! ### Accounts (R136 to R141) -/

/-- Change one account. -/
def State.mapAccount (a : Fin 256) (f : Account → Account) (s : State) : State :=
  s.mapMu fun mu => { mu with accounts := mu.accounts.set a (f mu.accounts[a]) }

/-- The plan of an account. -/
def State.planOf (s : State) (a : Fin 256) : Plan := s.mu.plans[s.mu.accounts[a].plan]

/-- A face of a sheet record as priced. -/
def Face.priced (f : Face) : PricedFace := (f.ink, f.coverage)

/-- The charge of a sheet of a job, priced at this event (R118, R124). -/
def State.sheetCharge (s : State) (j : Job) (r : SheetRecord) : Nat :=
  (s.planOf j.account).charge j.grade r.face1.priced (r.face2.map Face.priced) s.mu.accounts[j.account].faces

/-- Whether a charge passes the reservation test (R136): the account is OPEN and the charge does not exceed the
availability. -/
def Account.grants (a : Account) (c : Nat) : Bool :=
  decide (a.state = .opened) && decide ((c : Int) ≤ a.availability)

/-- Reserve a granted charge: H rises by it (R136). -/
def State.reserve (a : Fin 256) (c : Nat) (s : State) : State :=
  s.mapAccount a fun ac => { ac with held := ac.held + c }

/-- An availability event (R139): the rise is reported to every press in FUNDS_WAIT on the account. The reports reach their
engines as commands of their own, after the event: log entry 39 (DESIGN CHOICE). -/
def State.availabilityEvent (a : Fin 256) (s : State) : State :=
  s.mapMu fun mu => { mu with rises := mu.rises ++ (s.waitingOn a).map fun p => { press := p, account := a } }

/-- Settle a delivered entry's charge (R137). -/
def State.settle (a : Fin 256) (c faces : Nat) (s : State) : State :=
  s.mapAccount a fun ac =>
    { ac with
      balance := ac.balance - c
      held := ac.held - c
      faces := satAdd max32 ac.faces faces
      sheets := satAdd max32 ac.sheets 1
      charged := satAdd max32 ac.charged c }

/-- Release a lost entry's charge (R138); above 0 it is an availability event. -/
def State.release (a : Fin 256) (c : Nat) (s : State) : State :=
  let s := s.mapAccount a fun ac => { ac with held := ac.held - c }
  if 0 < c then s.availabilityEvent a else s

/-- What the job minimum takes from an account for a charged total (R141): the top-up applied and the shortfall. -/
def minimumOf (m charged : Nat) (availability : Int) : Nat × Nat :=
  let needed := m - charged
  let applied := (min (needed : Int) availability).toNat
  (applied, needed - applied)

/-- Apply the job minimum to an account (R141). -/
def State.applyMinimum (a : Fin 256) (charged : Nat) (s : State) : (Nat × Nat) × State :=
  let r := minimumOf (s.planOf a).minimum charged s.mu.accounts[a].availability
  (r, s.mapAccount a fun ac =>
    { ac with
      balance := ac.balance - r.1
      charged := satAdd max32 ac.charged r.1
      shortfall := satAdd max32 ac.shortfall r.2 })

/-! ### Press meters (R146, R147) -/

/-- Change one live meter record. -/
def State.mapMeter (p : Fin 16) (f : Meter → Meter) (s : State) : State :=
  s.mapMu fun mu => { mu with meters := mu.meters.set p (f mu.meters[p]) }

/-- The faces of an entry with an ink. -/
def PathEntry.facesOf (i : Ink) (e : PathEntry) : Nat :=
  (if e.ink1 = i then 1 else 0) + if e.ink2 = some i then 1 else 0

/-- The number of faces of an entry. -/
def PathEntry.faces (e : PathEntry) : Nat := if e.ink2.isSome then 2 else 1

/-- Count a delivered sheet's faces and the sheet (R146). -/
def Counters.deliver (e : PathEntry) (c : Counters) : Counters :=
  { c with
    mono := satAdd maxMeter c.mono (e.facesOf .mono)
    color := satAdd maxMeter c.color (e.facesOf .color)
    delivered := satAdd maxMeter c.delivered 1 }

/-- Count a spoiled sheet (R146). -/
def Counters.spoil (c : Counters) : Counters := { c with spoiled := satAdd maxMeter c.spoiled 1 }

/-- Count a delivered sheet toward the checkpoint (R147): at the interval, or above it, the press is marked pending and
the count returns to 0. -/
def State.checkpoint (p : Fin 16) (s : State) : State :=
  let n := s.mu.meters[p].since + 1
  if s.presses[p].profile.checkpoint ≤ n then
    (s.mapMeter p fun m => { m with since := 0 }).markPending p
  else s.mapMeter p fun m => { m with since := n }

/-- Count a delivery on the press's meters (R146, R147). -/
def State.countDelivery (p : Fin 16) (e : PathEntry) (s : State) : State :=
  (s.mapMeter p fun m => { m with live := m.live.deliver e }).checkpoint p

/-- Count a spoiled sheet on the press's meters (R146). -/
def State.countSpoiled (p : Fin 16) (s : State) : State :=
  s.mapMeter p fun m => { m with live := m.live.spoil }

end Sys2Proof.Machine
end

