-- ==== Sys2Proof/Machine/Engine.lean ====
section
/-! DEFINITION. The feed engines (chapter 5) with the job table's part in their events (chapter 1): dispatch
opportunities, binding and unbinding, entry to a final state, delivery and loss, the end of a hold and the removal of
alert entries, the return of a job to its queue, and the test for the end of QUIESCING. -/

namespace Sys2Proof.Machine

/-! ### Cursor and reprint list (R6, R7) -/

/-- The cursor after sheet `n` of copy `c` is dispatched (R6). -/
def Job.advanced (j : Job) (c n : Nat) : Cursor :=
  if j.closed && decide (j.sheets ≤ n) then
    if c < j.copies then .next (c + 1) 1 else .allDispatched
  else .next c (n + 1)

/-- Ascending order of pairs: by copy, then by sheet (R7). -/
def CopySheet.before (a b : CopySheet) : Bool :=
  decide (a.copy < b.copy) || (decide (a.copy = b.copy) && decide (a.sheet < b.sheet))

/-- Insert a lost pair at its place in the reprint list (R7). -/
def insertPair (x : CopySheet) : List CopySheet → List CopySheet
  | [] => [x]
  | y :: l => if x.before y then x :: y :: l else y :: insertPair x l

/-! ### Dispatch (R92 to R96) -/

/-- The tag of a new entry: the counter's value, passing over tags still in the path (R92). -/
def freshTag (path : List PathEntry) : Nat → Half → Half
  | 0, c => c
  | f + 1, c => if path.any (fun e => decide (e.tag = c)) then freshTag path f (c + 1) else c

/-- What a sheet choice finds (R94). -/
inductive SheetChoice where
  | nothing (c : Choice)
  | reprint (x : CopySheet)
  | cursor (x : CopySheet)
  deriving DecidableEq, Repr

/-- The choice of the sheet to send (R94). -/
def chooseSheet (pr : Press) (j : Job) : SheetChoice :=
  if !pr.allows j then .nothing .starved
  else if j.state = .ending then .nothing .draining
  else match j.reprint with
    | x :: _ => .reprint x
    | [] =>
      match j.cursor with
      | .allDispatched => .nothing .draining
      | .next c n => if 1 ≤ n ∧ n ≤ j.sheets then .cursor ⟨c, n⟩ else .nothing .starved

/-- Whether a FEEDING press goes on to the choice of a sheet (R93): not held, in RUN, no entry SENDING, room in the
window. -/
def Press.mayDispatch (mode : Mode) (pr : Press) : Bool :=
  pr.feeding && !pr.held && decide (mode = .run) && !pr.sending && decide (pr.path.length < pr.window)

/-- Take a sheet from the reprint list or the cursor (R95 step 3). -/
def Job.takeSheet (fromList : Bool) (x : CopySheet) (j : Job) : Job :=
  if fromList then { j with reprint := j.reprint.tail } else { j with cursor := j.advanced x.copy x.sheet }

/-- The SHEET_HEAD of a sheet (R80). -/
def sheetHeadOf (tag : Half) (j : Job) (r : SheetRecord) : FeedFrame :=
  .sheetHead tag j.grade (r.face1.ink, r.face1.length) (r.face2.map fun f => (f.ink, f.length))

/-- A new path entry (R95 step 2). -/
def newEntry (tag : Half) (h : Handle) (j : Job) (x : CopySheet) (r : SheetRecord) (c : Nat) (now : Time) : PathEntry :=
  { tag, job := h, pair := x, ink1 := r.face1.ink, ink2 := r.face2.map Face.ink, charge := c, account := j.account,
    dispatched := now, takenAt := none, state := .sending }

/-- Dispatch a sheet whose charge is reserved (R95): tag, path entry, list or cursor, last choice, transmission. -/
def State.dispatch (p : Fin 16) (h : Handle) (j : Job) (fromList : Bool) (x : CopySheet) (r : SheetRecord) (c : Nat)
    (s : State) : State :=
  let pr := s.presses[p]
  let tag := freshTag pr.path (pr.path.length + 1) pr.tagCounter
  let s := s.mapPress p fun pr =>
    { pr with
      tagCounter := tag + 1
      path := pr.path ++ [newEntry tag h j x r c s.tb]
      lastChoice := none
      tx := some { tag, slot := h.slot, sheet := x.sheet, sent := 0 } }
  (s.mapJob h.slot (Job.takeSheet fromList x)).send p (sheetHeadOf tag j r)

/-- Record a choice that found no sheet to dispatch (R94). -/
def State.noSheet (p : Fin 16) (c : Choice) (s : State) : State :=
  (s.mapPress p fun pr => { pr with lastChoice := some c }).refresh p

/-- The detail of a FUNDS notice (R96): handle, account, refused charge and availability at the refusal. -/
def fundsDetail (h : Handle) (a : Fin 256) (c : Nat) (availability : Int) : List Byte :=
  h.bytes ++ u16 a.val ++ u24 c ++ i32 availability

/-- A refused reservation (R94, R140): the last choice becomes FUNDS_WAIT, and on entry to that feed condition a FUNDS
notice is queued (R96). -/
def State.fundsRefused (p : Fin 16) (h : Handle) (a : Fin 256) (c : Nat) (s : State) : State :=
  let waited := decide (s.presses[p].cond = some .fundsWait)
  let availability := s.mu.accounts[a].availability
  let s := s.noSheet p .fundsWait
  if !waited && decide (s.presses[p].cond = some .fundsWait) then
    s.notice .funds 0 p.val (fundsDetail h a c availability)
  else s

/-- Price and reserve a chosen sheet, and dispatch it when the reservation is granted (R94, R95). -/
def State.trySheet (p : Fin 16) (h : Handle) (j : Job) (fromList : Bool) (x : CopySheet) (s : State) : State :=
  match s.smm.sheet? h.slot x.sheet with
  | none => s.noSheet p .starved
  | some r =>
    let c := s.sheetCharge j r
    if s.mu.accounts[j.account].grants c then
      ((s.reserve j.account c).dispatch p h j fromList x r c).refresh p
    else s.fundsRefused p h j.account c

/-- A dispatch opportunity of an engine (R93). -/
def State.opportunity (p : Fin 16) (s : State) : State :=
  match s.presses[p].bound with
  | none => s
  | some h =>
    match s.jobOf h with
    | none => s.refresh p
    | some j =>
      if s.presses[p].mayDispatch s.mlc.mode then
        match chooseSheet s.presses[p] j with
        | .nothing c => s.noSheet p c
        | .reprint x => s.trySheet p h j true x
        | .cursor x => s.trySheet p h j false x
      else s.refresh p

/-! ### Binding and unbinding (R88 to R90) -/

/-- The head of a class queue, when the press may be given it (R89). -/
def State.headFor (s : State) (pr : Press) (c : Fin 8) : Option (Handle × Job) :=
  match s.ru.queues[c].entries with
  | [] => none
  | e :: _ =>
    match s.jobOf e.handle with
    | some j => if pr.allows j then some (e.handle, j) else none
    | none => none

/-- The job a press binds: the first compatible head of its served classes, in list order (R89). -/
def State.jobFor (s : State) (p : Fin 16) : Option (Fin 8 × Handle × Job) :=
  s.presses[p].profile.classes.findSome? fun c => (s.headFor s.presses[p] c).map fun x => (c, x)

/-- Bind a job to a press (R89): queue, job, engine, JOB_MARK, dispatch opportunity. -/
def State.bind (p : Fin 16) (c : Fin 8) (h : Handle) (j : Job) (s : State) : State :=
  let s := s.mapRu (Ru.remove c h)
  let s := s.mapJob h.slot fun j => { j with state := .active, press := some p }
  let s := s.mapPress p fun pr =>
    { pr with
      bound := some h
      runStall := some pr.profile.stallTime
      runUnbind := some pr.profile.unbindTime
      lastChoice := none
      watch := none
      stalledTag := none }
  (s.send p (.jobMark h j.copies j.label)).opportunity p

/-- Whether a press binds at a binding event: READY, not held, in RUN (R88). -/
def Press.mayBind (mode : Mode) (pr : Press) : Bool := pr.ready && !pr.held && decide (mode = .run)

/-- A binding event of an engine (R88). -/
def State.bindEvent (p : Fin 16) (s : State) : State :=
  if s.presses[p].mayBind s.mlc.mode then
    match s.jobFor p with
    | some (c, h, j) => s.bind p c h j
    | none => s
  else s

/-- A press loses its bound job (R90): its dispatch state for the job becomes absent. -/
def Press.unbound (pr : Press) : Press :=
  { pr with
    bound := none, cond := none, lastChoice := none, runStall := none, runUnbind := none, watch := none,
    stalledTag := none, unbindDeadline := none }

/-- Unbind a press whose path is empty; it is READY and has a binding event (R90). -/
def State.unbind (p : Fin 16) (s : State) : State := (s.mapPress p Press.unbound).bindEvent p

/-! ### Entry to a final state (R16 to R18) -/

/-- A job in its final state, with its end record begun (R16 step 1). -/
def Job.finish (reason : EndReason) (failed : Option CopySheet) (now : Time) (j : Job) : Job :=
  { j with
    state := reason.state
    endedAt := some now
    coming := none
    endRecord := some { reason, failedSheet := failed, topUp := 0, shortfall := 0 } }

/-- Whether the job minimum is applied (R17). -/
def minimumApplies (reason : EndReason) (delivered : Nat) : Bool :=
  match reason with
  | .done => true
  | _ => decide (1 ≤ delivered)

/-- Record the top-up and shortfall that the MU returned (R17). -/
def Job.topped (r : Nat × Nat) (j : Job) : Job :=
  { j with
    charged := satAdd max32 j.charged r.1
    endRecord := j.endRecord.map fun e => { e with topUp := r.1, shortfall := r.2 } }

/-- Step 3 of R16: the job minimum. -/
def State.minimumStep (i : Fin 64) (reason : EndReason) (j : Job) (s : State) : State :=
  if minimumApplies reason j.delivered then
    let (r, s) := s.applyMinimum j.account j.charged
    s.mapJob i (Job.topped r)
  else s

/-- Step 4 of R16: the bound press becomes absent, and the engine unbinds and looks for a job. -/
def State.unbindStep (i : Fin 64) (j : Job) (s : State) : State :=
  match j.press with
  | some p => (s.mapJob i fun j => { j with press := none }).unbind p
  | none => s

/-- The detail of a JOB notice (R18): generation, delivered, lost, charged and shortfall. -/
def jobDetail (gen : Byte) (j : Job) : List Byte :=
  gen :: (u32 j.delivered ++ u32 j.lost ++ u32 j.charged ++ u16 ((j.endRecord.map EndRecord.shortfall).getD 0))

/-- Step 5 of R16: the JOB notice (R18), from the record as the steps left it. -/
def State.jobNotice (i : Fin 64) (reason : EndReason) (s : State) : State :=
  match s.jobs[i].job with
  | some j => s.notice .job reason.code i.val (jobDetail s.jobs[i].gen j)
  | none => s

/-- Entry to DONE, FAILED or CANCELLED (R16): state and end record, spool freed, job minimum, press unbound, notice. -/
def State.enterFinal (i : Fin 64) (reason : EndReason) (failed : Option CopySheet) (s : State) : State :=
  match s.jobs[i].job with
  | none => s
  | some j =>
    let s := s.mapJob i (Job.finish reason failed s.tb)
    let s := s.mapSmm (Smm.freeChain i)
    let s := s.minimumStep i reason j
    let s := s.unbindStep i j
    s.jobNotice i reason

/-- The end of a job in ENDING whose path is empty (R14). -/
def State.endingTest (i : Fin 64) (s : State) : State :=
  match s.jobs[i].job with
  | some j =>
    if j.state = .ending ∧ s.pathCountOf j = 0 then
      match j.coming with
      | some c => s.enterFinal i c.reason c.failedSheet
      | none => s.enterFinal i .cancelled none
    else s
  | none => s

/-- The done test of a job (R15). -/
def State.doneTest (i : Fin 64) (s : State) : State :=
  match s.jobs[i].job with
  | some j => if s.doneCondition j then s.enterFinal i .done none else s
  | none => s

/-- The job table's test after a delivery or loss: done in ACTIVE, end of ENDING in ENDING (R10). -/
def State.testEnd (i : Fin 64) (s : State) : State :=
  match s.jobs[i].job with
  | some j =>
    match j.state with
    | .active => s.doneTest i
    | .ending => s.endingTest i
    | _ => s
  | none => s

/-! ### Deliveries and losses at the job (R10) -/

/-- A delivery counted on the job. -/
def Job.deliver (faces charge : Nat) (j : Job) : Job :=
  { j with
    delivered := j.delivered + 1
    faces := j.faces + faces
    charged := satAdd max32 j.charged charge }

/-- A delivery report to the job table. -/
def State.reportDelivery (e : PathEntry) (s : State) : State :=
  match s.jobOf e.job with
  | some _ => (s.mapJob e.job.slot (Job.deliver e.faces e.charge)).testEnd e.job.slot
  | none => s

/-- A lost sheet counted on the job. -/
def Job.lose (j : Job) : Job := { j with lost := satAdd max32 j.lost 1 }

/-- A job that a loss under jam policy FAIL fails: cursor, reprint list and upload ended, the failed sheet kept for the
end record, and ENDING with reason FAILED (R10). -/
def Job.failing (x : CopySheet) (j : Job) : Job :=
  { j with
    state := .ending, cursor := .allDispatched, reprint := [], closed := true,
    coming := some { reason := .failed, failedSheet := some x } }

/-- A loss report to the job table (R10). A job that fails with an empty path enters FAILED in the same event (R14). -/
def State.reportLoss (e : PathEntry) (s : State) : State :=
  match s.jobOf e.job with
  | none => s
  | some j =>
    let i := e.job.slot
    let s := s.mapJob i Job.lose
    match j.state, j.jam with
    | .active, .reprint => (s.mapJob i fun j => { j with reprint := insertPair e.pair j.reprint }).testEnd i
    | .active, .fail => ((s.abandonOpen i).mapJob i (Job.failing e.pair)).testEnd i
    | _, _ => s.testEnd i

/-! ### Delivery and loss at the engine (R98, R100) -/

/-- Remove the entry of a tag from the path. -/
def Press.dropEntry (tag : Half) (pr : Press) : Press :=
  { pr with path := pr.path.filter fun e => decide (e.tag ≠ tag) }

/-- Steps 1 to 4 of R98 for the oldest entry of the path: removal, settlement and meters, the report to the job, the stall
watch. -/
def State.deliverEntry (p : Fin 16) (e : PathEntry) (s : State) : State :=
  let wasStalled := decide (s.presses[p].stalledTag = some e.tag)
  let s := s.mapPress p (Press.dropEntry e.tag)
  let s := if e.state = .sending then s.stopTx p else s
  let s := s.settle e.account e.charge e.faces
  let s := s.countDelivery p e
  let s := s.reportDelivery e
  s.stallAfterLeave p wasStalled

/-- The steps of R100 for one lost entry: removal with SHEET_ABORT when it was SENDING, release and spoiled count, the
report to the job, the stall watch. -/
def State.loseEntry (p : Fin 16) (e : PathEntry) (s : State) : State :=
  let wasStalled := decide (s.presses[p].stalledTag = some e.tag)
  let s := s.mapPress p (Press.dropEntry e.tag)
  let s := if e.state = .sending then (s.stopTx p).send p (.sheetAbort e.tag) else s
  let s := s.release e.account e.charge
  let s := s.countSpoiled p
  let s := s.reportLoss e
  s.stallAfterLeave p wasStalled

/-- Several losses of one event, one after another (R101). -/
def State.loseAll (p : Fin 16) (l : List PathEntry) (s : State) : State := l.foldl (fun s e => s.loseEntry p e) s

/-- One dispatch opportunity after an event, if the job bound before it is still bound (R98, R101). -/
def State.opportunityIfStill (p : Fin 16) (h : Option Handle) (s : State) : State :=
  if s.presses[p].bound = h then s.opportunity p else s

/-! ### The end of QUIESCING (R111, R204) -/

/-- Whether every path of the part is empty. -/
def State.allPathsEmpty (s : State) : Bool := s.presses.toList.all fun pr => pr.path.isEmpty

/-- Feed conditions of every press derived again. -/
def State.refreshAll (s : State) : State := (List.finRange 16).foldl (fun s p => s.refresh p) s

/-- In QUIESCING with every path empty the mode becomes SETUP, all presses are marked pending and a MODE notice QUIESCED
is queued (R204). Its object number 0 is log entry 37 (DESIGN CHOICE). -/
def State.quiesceTest (s : State) : State :=
  if s.mlc.mode = .quiescing ∧ s.allPathsEmpty = true then
    ((s.mapMlc fun m => { m with mode := .setup }).markAll (List.finRange 16)).notice .mode 0 0 []
  else s

/-! ### The end of a hold and the removal of entries (R107, R179) -/

/-- Hold ended (R107): the held flag cleared, RESUME, then a dispatch opportunity or a binding event. Whether the unbind
timer goes on or stops is decided by the condition that this opportunity leaves: log entry 35 (DEDUCED). -/
def State.holdEnded (p : Fin 16) (s : State) : State :=
  let s := (s.mapPress p fun pr => { pr with held := false }).sendBetween p .resume
  if s.presses[p].feeding then s.opportunity p else s.bindEvent p

/-- The reasons of a removal (R179). -/
inductive RemovalReason where
  | expired | cleared
  deriving DecidableEq, Repr

/-- Code of a removal reason. -/
def RemovalReason.code : RemovalReason → Nat
  | .expired => 0
  | .cleared => 1

/-- Steps 1 to 3 of R179 for one entry; `held` is the flag after the event (R182). -/
def State.removeEntry (p : Fin 16) (reason : RemovalReason) (held : Bool) (s : State) (k : AlertKind) : State :=
  match s.entry p k with
  | none => s
  | some e =>
    ((s.setEntry p k none).handToZone p).notice .alert 3 p.val
      (u8 k.code.val ++ u8 reason.code ++ u8 e.occurrences ++ flag held)

/-- A table without the entries of some kinds. -/
def tableWithout (t : Vector (Option AlertEntry) 11) (l : List AlertKind) : Vector (Option AlertEntry) 11 :=
  l.foldl (fun t k => t.set k.code none) t

/-- The removals of one event (R179): each entry in turn, then hold ended when the last holding entry has gone. -/
def State.removeEntries (p : Fin 16) (reason : RemovalReason) (l : List AlertKind) (s : State) : State :=
  let before := tableHolds s.au.tables[p]
  let after := tableHolds (tableWithout s.au.tables[p] l)
  let s := l.foldl (State.removeEntry p reason after) s
  if before && !after then s.holdEnded p else s

/-! ### The return of a job to its queue (R8, R53) -/

/-- Whether the class queue of a job has room. -/
def State.roomFor (s : State) (j : Job) : Bool := s.ru.queues[j.cls].room

/-- Return a job to the head of its class queue: QUEUED, no bound press, a queue event (R8, R53). -/
def State.returnJob (h : Handle) (j : Job) (s : State) : State :=
  (s.mapJob h.slot fun j => { j with state := .queued, press := none }).mapRu
    (Ru.insertHead j.cls { handle := h, urgent := j.urgent })

/-! ### Frames on an enabled link (R71, R79) -/

/-- The first step of every sound frame on an ONLINE press: the last frame time, and the end of a silence. -/
def State.heard (p : Fin 16) (s : State) : State :=
  let s := s.mapPress p fun pr => { pr with lastFrame := some s.tb }
  if s.silent p then s.conditionEnd p .linkSilent none else s

/-- A sound frame handled only on an ONLINE press (R71). -/
def State.onlineFrame (p : Fin 16) (f : State → State) (s : State) : State :=
  if s.presses[p].link = .online then f (s.heard p) else s

/-- A PROBE: sent and counted, its timer started (R66, R67, R83). -/
def State.probe (p : Fin 16) (s : State) : State :=
  (s.send p .probe).mapPress p fun pr =>
    { pr with
      probes := satAdd 255 pr.probes 1
      probeDeadline := some (s.tb + ms pr.profile.linkTimeout) }

end Sys2Proof.Machine
end

