-- ==== Sys2Proof/Machine/StoreOps.lean ====
section
/-! DEFINITION. The meter store's operations (chapter 8): choosing and planning a write, its completion, the fill step,
erases with their verify, the start-up scan, and what a reset leaves of an operation it cuts off. -/

namespace Sys2Proof.Machine

/-! ### The pending set -/

/-- The pending presses, in ascending order (R148). -/
def Store.pendingList (st : Store) : List (Fin 16) := (List.finRange 16).filter fun p => st.marks[p].pending

/-- The pending presses that are forced (R148). -/
def Store.forcedList (st : Store) : List (Fin 16) :=
  (List.finRange 16).filter fun p => st.marks[p].pending && st.marks[p].forced

/-- The press the next write is for: the lowest forced one, or the lowest pending one (R153). -/
def Store.chosen (st : Store) : Option (Fin 16) :=
  match st.forcedList with
  | p :: _ => some p
  | [] => st.pendingList.head?

/-- The pending set as a field. -/
def Store.pendingBytes (st : Store) : List Byte := set16 fun p => st.marks[p].pending

/-! ### Sectors and slots -/

/-- The sector next in the ring (R151). -/
def nextSector (k : Fin 4) : Fin 4 := k + 1

/-- The kind of a slot's content (R150). -/
def Store.kindAt (st : Store) (k : Fin 4) (slot : Nat) : SlotKind := slotKindOf (slotContent st.flash k slot)

/-- Whether a slot is free (R150). -/
def Store.freeAt (st : Store) (k : Fin 4) (slot : Nat) : Bool := decide (st.kindAt k slot = .free)

/-- The first free slot from `slot` on, and the slots that a write voids on its way (R153 step 2). -/
def Store.seek (st : Store) (k : Fin 4) : Nat → Nat → List (Fin 4 × Nat) → List (Fin 4 × Nat) × Option Nat
  | 0, _, voids => (voids, none)
  | n + 1, slot, voids =>
    if st.freeAt k slot then (voids, some slot) else st.seek k n (slot + 1) (voids ++ [(k, slot)])

/-- Where a write puts its record (R153 steps 2 and 3): in ACTIVE, or in SPARE once ACTIVE has no free slot left, with the
slots voided on the way. -/
def Store.place (st : Store) : Option (List (Fin 4 × Nat) × Fin 4 × Nat) :=
  match st.seek st.active (Config.sectorSlots - st.writeSlot) st.writeSlot [] with
  | (voids, some slot) => some (voids, st.active, slot)
  | (voids, none) =>
    match st.spare with
    | none => none
    | some k =>
      match st.seek k Config.sectorSlots 0 voids with
      | (voids, some slot) => some (voids, k, slot)
      | (_, none) => none

/-! ### Counts (R160) -/

/-- Put a slot of a kind into the counts. -/
def SlotCounts.more (k : SlotKind) (c : SlotCounts) : SlotCounts :=
  match k with
  | .free => { c with free := c.free + 1 }
  | .void => { c with void := c.void + 1 }
  | .record _ => { c with record := c.record + 1 }
  | .torn => { c with torn := c.torn + 1 }

/-- Change the counts of one sector. -/
def Store.mapCounts (k : Fin 4) (f : SlotCounts → SlotCounts) (st : Store) : Store :=
  { st with counts := st.counts.set k (f st.counts[k]) }

/-- Whether a sector is erased: every slot free. -/
def Store.erasedAt (st : Store) (k : Fin 4) : Bool := decide (st.counts[k].free = Config.sectorSlots)

/-! ### Writing (R153) -/

/-- Program a slot void (R150). The counts are kept and not read from the flash (R160): every slot from the write slot on
was counted free when its sector was erased or scanned, also one that holds stray bits by now (8.8), so it leaves the free
slots. -/
def Store.voidSlot (st : Store) (x : Fin 4 × Nat) : Store :=
  { st.mapCounts x.1 (fun c => { c with free := c.free - 1, void := c.void + 1 }) with
    flash := flashProgramAll st.flash (slotAddress x.1 x.2) (List.replicate Config.slotBytes 0) }

/-- The record of a write. -/
def WriteOp.content (w : WriteOp) : List Byte := recordBytes w.press w.sequence w.snapshot

/-- Program the record into the free slot found. -/
def Store.programRecord (w : WriteOp) (st : Store) : Store :=
  { st.mapCounts w.sector (fun c => { c with free := c.free - 1, record := c.record + 1 }) with
    flash := flashProgramAll st.flash (slotAddress w.sector w.slot) w.content }

/-- SPARE becomes ACTIVE with write slot 0 (R153, R155 step 1). -/
def Store.moveToSpare (st : Store) : Store :=
  match st.spare with
  | some k => { st with active := k, spare := none, writeSlot := 0 }
  | none => st

/-- Whether a slot is the last of its sector. -/
def lastSlot (x : Fin 4 × Nat) : Bool := decide (x.2 + 1 = Config.sectorSlots)

/-- Step 2 of a write for one slot that is not free (R153): it is programmed void and the write slot stands behind it; when
it is the last slot of ACTIVE, SPARE becomes ACTIVE at once. -/
def Store.passSlot (st : Store) (x : Fin 4 × Nat) : Store :=
  let st := { st.voidSlot x with writeSlot := x.2 + 1 }
  if lastSlot x then st.moveToSpare else st

/-- A write in progress passes the next `n` of the slots it has still to void. -/
def Store.passSlots (n : Nat) (w : WriteOp) (st : Store) : Store :=
  { (w.voids.take n).foldl Store.passSlot st with
    op := some (.write { w with voids := w.voids.drop n }) }

/-- How far the write in progress has come: some number of the slots it has still to void are void by now, which the
manual leaves open (R152: up to 0.6 ms for each program; log entry 13). -/
def State.advanceWrite (s : State) : State :=
  match s.store.op with
  | some (.write w) =>
    let (n, s') := s.anyUpTo w.voids.length
    s'.mapStore (Store.passSlots n w)
  | _ => s

/-- What is left of steps 2 to 4 of a write: the slots still to void, the record programmed, the write slot behind it in the
sector that is ACTIVE by then, and the press's newest record. -/
def Store.finishWrite (w : WriteOp) (st : Store) : Store :=
  let st := (w.voids.foldl Store.passSlot st).programRecord w
  { st with
    op := none
    active := w.sector
    spare := if w.moves then none else st.spare
    writeSlot := w.slot + 1
    newest := st.newest.set w.press (some { sector := w.sector, slot := w.slot, sequence := w.sequence }) }

/-- The presses whose newest record lies in a sector. -/
def Store.newestIn (st : Store) (k : Fin 4) : List (Fin 16) :=
  (List.finRange 16).filter fun p => match st.newest[p] with
    | some n => decide (n.sector = k)
    | none => false

/-- Mark a press forced (R148). -/
def Store.force (st : Store) (p : Fin 16) : Store :=
  { st with marks := st.marks.set p { pending := true, forced := true } }

/-- The sector next after ACTIVE becomes the victim, and the presses whose newest record it holds are marked forced (R155
steps 2 and 3). -/
def Store.setVictim (st : Store) : Store :=
  let k := nextSector st.active
  (st.newestIn k).foldl Store.force { st with victim := some k }

/-- The fill step at a write's completion (R155): its rest when SPARE became ACTIVE during the write, the whole of it when
the write left the write slot at 256. Without a SPARE it is passed over: log entry 38 (DESIGN CHOICE). -/
def Store.fillStep (moves : Bool) (st : Store) : Store :=
  if moves then st.setVictim
  else if st.writeSlot = Config.sectorSlots ∧ st.spare.isSome = true then st.moveToSpare.setVictim
  else st

/-- Take the snapshot's press out of the pending set and begin its write (R153 step 1). -/
def Store.beginWrite (p : Fin 16) (snapshot : Counters) (x : List (Fin 4 × Nat) × Fin 4 × Nat) (st : Store) : Store :=
  { st with
    op := some (.write { press := p, sequence := st.nextSeq, snapshot, voids := x.1, sector := x.2.1, slot := x.2.2,
                         moves := decide (x.2.1 ≠ st.active) })
    nextSeq := st.nextSeq + 1
    marks := st.marks.set p { pending := false, forced := false }
    state := if st.state = .scanning then .scanning else .writing }

/-- The store has no sequence left (R154). -/
def Store.worn (st : Store) : Bool := decide (Config.maxSequence < st.nextSeq)

/-- Whether the store takes up an operation by itself: IDLE, or carrying a victim forward in its scan, with no operation
in progress (R152, R163). -/
def Store.free (st : Store) : Bool :=
  st.op.isNone && (decide (st.state = .idle) || (decide (st.state = .scanning) && decide (st.scan = some .compacting)))

/-- Whether a write begins (R152, R156): ordinary presses wait while a victim has no forced press left. -/
def Store.writeDue (st : Store) : Bool :=
  st.free && !st.pendingList.isEmpty && (st.victim.isNone || !st.forcedList.isEmpty)

/-- Whether the erase of the victim begins (R156). -/
def Store.eraseDue (st : Store) : Bool := st.free && st.victim.isSome && st.forcedList.isEmpty

/-! ### Failure and its notice (R157, R158, R161) -/

/-- Code of a failed reason. -/
def FailReason.code : FailReason → Nat
  | .erase _ => 0
  | .worn => 1

/-- The sector of a failed reason. -/
def FailReason.sector : FailReason → Option (Fin 4)
  | .erase k => some k
  | .worn => none

/-- A failed reason with its sector. -/
def FailReason.bytes (r : FailReason) : List Byte := u8 r.code ++ opt (fun k : Fin 4 => u8 k.val) r.sector

/-- The store enters FAILED: save owed is cleared (R159) and the FAILED notice is queued. -/
def State.storeFails (r : FailReason) (s : State) : State :=
  (s.mapStore fun st => { st with state := .failed, failed := some r, op := none, saveOwed := false }).notice .store 2
    ((r.sector.map Fin.val).getD 0) (r.bytes ++ u8 s.store.pendingList.length)

/-- A failure found while the scan runs ends the scan; the store enters FAILED at its end (R163). -/
def Store.scanFails (r : FailReason) (st : Store) : Store :=
  { st with failed := some r, op := none, scan := some .ending }

/-- SAVE_DONE (R159): queued when a write completes with the pending set empty and save owed set. Its detail carries that
empty set as two zero bytes before the sequence: log entry 10 (DESIGN CHOICE). -/
def State.saveDone (sequence : Nat) (s : State) : State :=
  if s.store.saveOwed && s.store.pendingList.isEmpty then
    (s.mapStore fun st => { st with saveOwed := false }).notice .store 1 0 (s.store.pendingBytes ++ u32 sequence)
  else s

/-! ### Erasing (R157) -/

/-- Begin an attempt on a sector. -/
def Store.beginErase (k : Fin 4) (attempts : Nat) (st : Store) : Store :=
  { st with
    op := some (.erase k), attempts, state := if st.state = .scanning then .scanning else .erasing }

/-- The counts of a sector from its content, and its torn slots with them. -/
def Store.countSector (st : Store) (k : Fin 4) : SlotCounts :=
  (List.range Config.sectorSlots).foldl (fun c i => c.more (st.kindAt k i)) ⟨0, 0, 0, 0⟩

/-- The flash after an erase of a sector, and the sector's counts. -/
def Store.erase (k : Fin 4) (residue : List (Nat × Byte)) (st : Store) : Store :=
  let st := { st with flash := flashErase st.flash k residue }
  st.mapCounts k fun _ => st.countSector k

/-! ### The start-up scan (R162, R163) -/

/-- A slot's record, for the choice of the newest one. -/
def Store.recordAt (st : Store) (k : Fin 4) (slot : Nat) : Option (Newest × MeterRecord) :=
  match st.kindAt k slot with
  | .record r => some (⟨k, slot, r.sequence⟩, r)
  | _ => none

/-- Every valid record of the flash. -/
def Store.records (st : Store) : List (Newest × MeterRecord) :=
  (List.finRange 4).flatMap fun k => (List.range Config.sectorSlots).filterMap (st.recordAt k)

/-- The record of highest sequence in a list. -/
def highest : List (Newest × MeterRecord) → Option (Newest × MeterRecord)
  | [] => none
  | x :: l =>
    match highest l with
    | some y => if x.2.sequence < y.2.sequence then some y else some x
    | none => some x

/-- The newest record of a press among those of the flash (R162). -/
def newestOf (l : List (Newest × MeterRecord)) (p : Fin 16) : Option (Newest × MeterRecord) :=
  highest (l.filter fun x => decide (x.2.press = p))

/-- The slot after the last slot of a sector that is not free, or 0 (R163 step 2). -/
def Store.slotAfterLast (st : Store) (k : Fin 4) : Nat :=
  (List.range Config.sectorSlots).foldl (fun n i => if st.freeAt k i then n else i + 1) 0

/-- The sectors the scan erases (R163 step 1): neither erased nor holding a valid record. Their order, ascending, and the end
at the first that fails, are log entry 40 (DESIGN CHOICE). -/
def Store.toClear (st : Store) : List (Fin 4) :=
  (List.finRange 4).filter fun k => !st.erasedAt k && decide (st.counts[k].record = 0)

/-- ACTIVE, write slot, next sequence and SPARE (R163 steps 2 and 3), and no operation in progress. -/
def Store.ring (st : Store) : Store :=
  let top := highest st.records
  let active := match top with
    | some x => x.1.sector
    | none => 0
  let next := match top with
    | some x => x.2.sequence + 1
    | none => 1
  { st with
    op := none, active, writeSlot := st.slotAfterLast active, nextSeq := next,
    spare := if st.erasedAt (nextSector active) then some (nextSector active) else none }

/-- The fill step of the scan (R163 step 4), passed over where ACTIVE is full and there is no SPARE: log entry 38 (DESIGN
CHOICE). -/
def Store.scanFill (st : Store) : Store :=
  if st.writeSlot = Config.sectorSlots ∧ st.spare.isSome = true then st.moveToSpare.setVictim else st

/-- The victim step (R163 step 5). -/
def Store.victimStep (st : Store) : Store :=
  if st.victim.isNone && !st.erasedAt (nextSector st.active) then { st.setVictim with spare := none } else st

/-- Steps 2 to 5 of R163, and where the scan goes next. -/
def Store.restore (st : Store) : Store :=
  let st := st.ring.scanFill.victimStep
  { st with attempts := 0, scan := some (if st.victim.isSome then .compacting else .ending) }

/-- Go on with the sectors to clear, or restore the ring when none is left. -/
def Store.clearNext (l : List (Fin 4)) (st : Store) : Store :=
  match l with
  | k :: rest => { st.beginErase k 1 with scan := some (.clearing rest) }
  | [] => st.restore

/-- The reading and classifying of the scan (R162): the counts, the torn slots found, and the newest records. -/
def Store.classify (st : Store) : Store :=
  let counts := Vector.ofFn st.countSector
  let l := st.records
  { st with
    counts
    torn := counts[(0 : Fin 4)].torn + counts[(1 : Fin 4)].torn + counts[(2 : Fin 4)].torn + counts[(3 : Fin 4)].torn
    newest := Vector.ofFn fun p => (newestOf l p).map Prod.fst }

/-- The live counters that the scan loads for a press (R162). -/
def Store.loaded (st : Store) (p : Fin 16) : Counters :=
  match newestOf st.records p with
  | some x => x.2.counters
  | none => ⟨0, 0, 0, 0⟩

/-- The number of presses with no record. -/
def Store.recordless (st : Store) : Nat := ((List.finRange 16).filter fun p => st.newest[p].isNone).length

/-- A verified erase (R157): outside the scan the victim becomes SPARE and the store IDLE; in it the scan goes on. That
SCANNED counts the verified erases alone (R161) is log entry 33 (DESIGN CHOICE). -/
def Store.eraseVerified (k : Fin 4) (st : Store) : Store :=
  match st.scan with
  | some (.clearing rest) => { st with erased := st.erased + 1 }.clearNext rest
  | some _ =>
    { st with
      op := none, victim := none, spare := some k, attempts := 0, erased := st.erased + 1, scan := some .ending }
  | none => { st with op := none, victim := none, spare := some k, attempts := 0, state := .idle }

/-- An erase that fails its verify (R157): once more, or FAILED. A scan that fails while clearing sectors still has its
ring, as far as it is found. -/
def State.eraseFailed (k : Fin 4) (s : State) : State :=
  if s.store.attempts < 2 then s.mapStore (Store.beginErase k 2)
  else match s.store.scan with
    | some (.clearing _) => s.mapStore fun st => st.ring.scanFails (.erase k)
    | some _ => s.mapStore (Store.scanFails (.erase k))
    | none => s.storeFails (.erase k)

/-- The reason for which a scan ends in FAILED, if it does (R163). Where an erase has failed twice and the next sequence is
0xFFFFFFFF too, the reason is ERASE with its sector: log entry 41 (DESIGN CHOICE). -/
def Store.scanFailure (st : Store) : Option FailReason :=
  match st.failed with
  | some r => some r
  | none => if st.worn then some .worn else none

/-- The store enters the state in which its scan ends (R163), with no erase attempts (R151) and with its FAILED notice when
it has failed. -/
def State.storeSettles (s : State) : State :=
  let s := s.mapStore fun st => { st with scan := none, state := .idle, attempts := 0 }
  match s.store.scanFailure with
  | some r => s.storeFails r
  | none => s

/-- The SCANNED notice (R161), when the scan found a torn record or erased a sector. -/
def State.scannedNotice (s : State) : State :=
  if 0 < s.store.torn ∨ 0 < s.store.erased then
    s.notice .store 0 0
      (u16 s.store.torn ++ u8 s.store.erased ++ u8 s.store.recordless ++ u8 s.store.state.code)
  else s

/-! ### What a reset leaves of an operation it cuts off (R162; log entry 6) -/

/-- A byte whose programming toward `target` was cut off: some of the bits to be cleared are cleared. -/
def cutByte (c : Nat) (old target : Byte) : Byte := old &&& (target ||| Config.remnant c)

/-- Programs cut off, byte after byte from an address. -/
def cutProgram (m : Memory) (a c : Nat) : List Byte → Memory × Nat
  | [] => (m, c)
  | b :: l =>
    cutProgram (Memory.write Config.erasedByte m a (cutByte c (Memory.read Config.erasedByte m a) b)) (a + 1) (c + 1) l

/-- The program of a record cut off (R150: "a record that a power failure cut off during programming is torn, because its
check fails"): what the remnant leaves, which of the torn contents it is being free; a remnant that is no torn content is
not left, and the record's mark stands alone in the slot in its place. -/
def cutRecord (w : WriteOp) (m : Memory) (c : Nat) : Memory × Nat :=
  let r := cutProgram m (slotAddress w.sector w.slot) c w.content
  (if slotKindOf (slotContent r.1 w.sector w.slot) = .torn then r.1 else flashProgram m (slotAddress w.sector w.slot) 0xA5,
    r.2)

/-- A write cut off in the program it has come to: that of the next slot it has still to void, or of its record when none
is left. What kind a slot reads as whose void was cut off is left free (R150). -/
def cutWrite (w : WriteOp) (m : Memory) (c : Nat) : Memory × Nat :=
  match w.voids with
  | x :: _ => cutProgram m (slotAddress x.1 x.2) c (List.replicate Config.slotBytes 0)
  | [] => cutRecord w m c

/-- An erase cut off: in each byte of the sector some of the clear bits are set. -/
def cutErase (m : Memory) (k : Fin 4) (c : Nat) : List Host.Cell → Memory × Nat
  | [] => (m, c)
  | x :: l =>
    let m := if k.val * Config.sectorBytes ≤ x.1 ∧ x.1 < (k.val + 1) * Config.sectorBytes
      then Memory.write Config.erasedByte m x.1 (x.2 ||| Config.remnant c) else m
    cutErase m k (c + 1) l

/-- The flash a hardware reset leaves (R162), and the choices made. -/
def Store.cutOff (st : Store) (c : Nat) : Memory × Nat :=
  match st.op with
  | none => (st.flash, c)
  | some (.write w) => cutWrite w st.flash c
  | some (.erase k) => cutErase st.flash k c st.flash

end Sys2Proof.Machine
end

