-- ==== Sys2Proof/Machine/Resets.lean ====
section
/-! DEFINITION. The resets (R207 to R209 and the reset rule of every chapter). -/

namespace Sys2Proof.Machine

/-! ### The hardware reset (R208) -/

/-- A hardware reset: every block at its reset values, with the pin levels taken then, the spool memory left as it is and
the flash as the reset leaves it, a write in progress having come some way. The waiting commands are the environment's and
stay. -/
def State.hardReset (cause : ResetCause) (pins : Pins) (s : State) : State :=
  let s := s.advanceWrite
  let (flash, choices) := s.store.cutOff s.choices
  { State.hardware cause pins s.smm.mem flash with pending := s.pending, choices }

/-! ### RESET SOFT (R209), block by block -/

/-- The message link controller (R209): queues and flags emptied, a reply partly sent on MISO cut off, the mask kept, mode
SETUP, the receiver in HUNT. -/
def Mlc.softReset (m : Mlc) : Mlc :=
  Mlc.drive
    { m with
      rx := .hunt, miso := .reply 0, replies := [], lostRequest := false, notices := [], overflow := false, pendingFlags := 0,
      mode := .setup }

/-- The routing unit (R60): filters and capacities kept, queues emptied. -/
def Ru.softReset (r : Ru) : Ru :=
  { r with queues := r.queues.map fun (q : ClassQueue) => { q with entries := [] }, reports := [] }

/-- Dispatch state at its values after reset (R113). -/
def Press.dispatchReset (pr : Press) : Press :=
  { Press.unbound pr with tagCounter := 0, path := [], held := false, tx := none }

/-- A link back in AWAITING with what a HELLO and the frames gave it absent (R86). -/
def Press.toAwaiting (pr : Press) : Press :=
  { pr with link := .awaiting, reported := none, effective := none, applied := none, lastFrame := none }

/-- One press at RESET SOFT, by the link state it had (R86). -/
def State.softResetPress (s : State) (p : Fin 16) : State :=
  match s.presses[p].link with
  | .disabled => s.mapPress p Press.dispatchReset
  | .awaiting =>
    (((s.stopTx p).mapPress p fun pr => pr.dispatchReset.toAwaiting).send p .purge).probe p
  | .online =>
    ((((s.stopTx p).mapPress p fun pr => pr.dispatchReset.toAwaiting).send p .purge).probe p).markPending p

/-- The accounts keep all but their held amounts (R144), the since-checkpoint counts are 0 (R165), and no availability
report is outstanding. -/
def Mu.softReset (m : Mu) : Mu :=
  { m with
    accounts := m.accounts.map fun (a : Account) => { a with held := 0 }
    meters := m.meters.map fun (x : Meter) => { x with since := 0 }
    rises := [] }

/-- A zone record at RESET SOFT (R195): pattern OFF and no phase; button and acknowledgements kept. -/
def Zone.softReset (z : Zone) : Zone := { z with pattern := .off, phase := none }

/-- RESET SOFT as one event for the whole part (R209), up to its notice: presses, jobs, spool, queues, paths, held
amounts, alerts and patterns cleared, all presses marked pending and save owed cleared (R165). -/
def State.softReset (s : State) : State :=
  let s := (List.finRange 16).foldl State.softResetPress s
  let s :=
    { s with
      mlc := s.mlc.softReset
      jobs := s.jobs.map fun (sl : Slot) => { sl with job := none }
      smm := Smm.fresh s.smm.size s.smm.mem
      ru := s.ru.softReset
      mu := s.mu.softReset
      store := { s.store with saveOwed := false }
      au := { s.au with tables := Vector.replicate 16 emptyTable }
      zones := s.zones.map Zone.softReset }
  (s.markAll (List.finRange 16)).notice .mode 1 0 (u8 ResetCause.soft.code)

/-! ### The rows -/

/-- A RESET request that passes its checks, by its scope; RESET HARD draws no reply (R207). -/
def State.reset1 (tag : Byte) (body : List Byte) (pins : Pins) (s : State) : State :=
  if body = [0] ∧ s.mlc.replies.length < Config.replyCapacity ∧ s.scanning = false then s.hardReset .request pins
  else takeRequest 0x03 tag false
    (fun s => match body with
      | [b] => if b = 1 then accept [] s.softReset else refuse .value s
      | _ => refuse .length s) s

/-- POWER_ON_RESET (R208). -/
def execPowerOnReset (pins : Pins) (s : State) : Host.Outcome State Fault Refusal := .next (s.hardReset .powerOn pins)

/-- RST_PIN_RESET (R208). -/
def execRstPinReset (pins : Pins) (s : State) : Host.Outcome State Fault Refusal := .next (s.hardReset .pin pins)

/-- RESET_HARD (R207). -/
def execResetHard (tag : Byte) (body : List Byte) (pins : Pins) (s : State) : Host.Outcome State Fault Refusal :=
  .next (s.reset1 tag body pins)

/-- RESET_SOFT (R207, R209). -/
def execResetSoft (tag : Byte) (body : List Byte) (s : State) : Host.Outcome State Fault Refusal :=
  .next (s.reset1 tag body s.pins)

end Sys2Proof.Machine
end

