-- ==== Sys2Proof/Machine/Link.lean ====
section
/-! DEFINITION. The message link controller's rows: identity, status, mode, notices and attention (chapter 11), the
requests that no block owns, and the events of the port. -/

namespace Sys2Proof.Machine

/-- A request with an empty body. -/
def noBody (body : List Byte) (own : State → Answer) (s : State) : Answer :=
  if body = [] then own s else refuse .length s

/-! ### Identity and status (R205, R206) -/

/-- The spool size in MiB (R24). -/
def SpoolSize.mib : SpoolSize → Nat
  | .mib128 => 128
  | .mib256 => 256
  | .mib512 => 512

/-- The reply of IDENTIFY (R205). -/
def State.identity (s : State) : List Byte :=
  u16 Config.vendorCode.toNat ++ Config.partCode ++ [Config.revisionLetter] ++ u16 s.smm.size.mib ++
    u16 s.smm.size.extents ++ u16 Config.maxBody

/-- The number of jobs in a state. -/
def State.countIn (s : State) (st : JobState) : Nat :=
  (s.jobs.toList.filter fun sl => match sl.job with
    | some j => decide (j.state = st)
    | none => false).length

/-- The number of occupied slots. -/
def State.occupied (s : State) : Nat := (s.jobs.toList.filter fun sl => sl.job.isSome).length

/-- What STATUS says of a press (R69). -/
def Press.statusBytes (pr : Press) : List Byte :=
  u8 pr.stateCode ++ flag pr.held ++ opt (fun c : FeedCond => u8 c.code) pr.cond ++ u8 pr.path.length

/-- What STATUS says of a class (R58). -/
def ClassQueue.statusBytes (q : ClassQueue) : List Byte := u8 q.entries.length ++ q.flagsByte

/-- The reply of STATUS (R206), every figure the one held when the request is taken. So the notice count, the overflow flag
and the LINK pending flag show the frames that were discarded in the scan (DESIGN CHOICE, log entry 42). -/
def State.statusReport (s : State) : List Byte :=
  u8 s.mlc.mode.code ++ flag s.scanning ++ timeBytes s.tb ++ u8 s.occupied ++
    (JobState.all.flatMap fun st => u8 (s.countIn st)) ++ u16 s.smm.free.length ++
    s.ru.queues.toList.flatMap ClassQueue.statusBytes ++ s.presses.toList.flatMap Press.statusBytes ++
    u8 s.store.state.code ++ u8 s.store.pendingList.length ++ (s.zones.toList.flatMap fun z => u8 z.pattern.code) ++
    u8 s.mlc.notices.length ++ flag s.mlc.overflow ++ [s.mlc.pendingFlags, s.mlc.mask]

/-- IDENTIFY (R205). -/
def execIdentify (tag : Byte) (body : List Byte) (s : State) : Host.Outcome State Fault Refusal :=
  .next (takeRequest 0x01 tag true (noBody body fun s => accept s.identity s) s)

/-- STATUS (R206). -/
def execStatus (tag : Byte) (body : List Byte) (s : State) : Host.Outcome State Fault Refusal :=
  .next (takeRequest 0x02 tag true (noBody body fun s => accept s.statusReport s) s)

/-! ### Operating modes (R203, R204) -/

/-- An engine as the mode becomes RUN (R110): an opportunity when FEEDING, a binding event when READY. -/
def State.engineToRun (s : State) (p : Fin 16) : State :=
  if s.presses[p].feeding then s.opportunity p else s.bindEvent p

/-- The mode becomes RUN, and each engine acts by its press state, in an order that the manual leaves open (R110). -/
def State.toRun (s : State) : State :=
  let s := s.mapMlc fun m => { m with mode := .run }
  let (l, s) := s.inAnyOrder ((List.finRange 16).filter fun p => decide (s.presses[p].link = .online))
  l.foldl State.engineToRun s

/-- The mode becomes QUIESCING, and the drain ends at once when every path is empty (R204). -/
def State.toQuiescing (s : State) : State :=
  ((s.mapMlc fun m => { m with mode := .quiescing }).refreshAll).quiesceTest

/-- The mode after a request, as its reply carries it. -/
def acceptMode (s : State) : Answer := accept (u8 s.mlc.mode.code) s

/-- MODE_SET (R203). -/
def modeSet (body : List Byte) (s : State) : Answer :=
  match body with
  | [b] =>
    if b = 0 then acceptMode (if s.mlc.mode = .run then s else s.toRun)
    else if b = 1 then
      match s.mlc.mode with
      | .setup => refuse .mode s
      | .run => acceptMode s.toQuiescing
      | .quiescing => acceptMode s
    else refuse .value s
  | _ => refuse .length s

/-- MODE_SET_RUN (R203, R110). -/
def execModeSetRun (tag : Byte) (body : List Byte) (s : State) : Host.Outcome State Fault Refusal :=
  .next (takeRequest 0x04 tag false (modeSet body) s)

/-- MODE_SET_QUIESCE (R203, R204). -/
def execModeSetQuiesce (tag : Byte) (body : List Byte) (s : State) : Host.Outcome State Fault Refusal :=
  .next (takeRequest 0x04 tag false (modeSet body) s)

/-! ### Notices and attention (R201, R202) -/

/-- Remove notices from the head; an empty queue clears the overflow flag (R202). -/
def Mlc.fetch (n : Nat) (m : Mlc) : Mlc :=
  let rest := m.notices.drop n
  { m with notices := rest, overflow := m.overflow && !rest.isEmpty }

/-- FETCH_NOTICES's answer (R202). -/
def fetchNotices (body : List Byte) (s : State) : Answer :=
  match body with
  | [n] =>
    if n.toNat = 0 ∨ 16 < n.toNat then refuse .value s
    else accept (list8 Notice.bytes (s.mlc.notices.take n.toNat)) (s.mapMlc (Mlc.fetch n.toNat))
  | _ => refuse .length s

/-- FETCH_NOTICES (R202). -/
def execFetchNotices (tag : Byte) (body : List Byte) (s : State) : Host.Outcome State Fault Refusal :=
  .next (takeRequest 0x05 tag false (fetchNotices body) s)

/-- Write the attention mask and drive ATTN# by it (R201). -/
def Mlc.setMask (b : Byte) (m : Mlc) : Mlc := Mlc.drive { m with mask := b }

/-- ATTN_MASK's answer (R201). -/
def attnMask (body : List Byte) (s : State) : Answer :=
  match body with
  | [b] => accept [s.mlc.mask, b] (s.mapMlc (Mlc.setMask b))
  | _ => refuse .length s

/-- ATTN_MASK (R201). -/
def execAttnMask (tag : Byte) (body : List Byte) (s : State) : Host.Outcome State Fault Refusal :=
  .next (takeRequest 0x06 tag false (attnMask body) s)

/-- Clear the pending flags named and drive ATTN# (R201). -/
def Mlc.clearFlags (b : Byte) (m : Mlc) : Mlc := Mlc.drive { m with pendingFlags := m.pendingFlags &&& ~~~b }

/-- ATTN_CLEAR's answer (R201). -/
def attnClear (body : List Byte) (s : State) : Answer :=
  match body with
  | [b] => accept [s.mlc.pendingFlags &&& ~~~b] (s.mapMlc (Mlc.clearFlags b))
  | _ => refuse .length s

/-- ATTN_CLEAR (R201). -/
def execAttnClear (tag : Byte) (body : List Byte) (s : State) : Host.Outcome State Fault Refusal :=
  .next (takeRequest 0x07 tag false (attnClear body) s)

/-! ### Requests that no block takes (R197) -/

/-- UNKNOWN_REQUEST (R197): answered UNKNOWN, in the scan too, since only a request that names a type is refused MODE. -/
def execUnknownRequest (typ tag : Byte) (_body : List Byte) (s : State) : Host.Outcome State Fault Refusal :=
  .next (if namesRequest typ then s else takeRequest typ tag true (refuse .unknown) s)

/-- REQUEST_DROPPED (R197): 8 replies wait, so the request has no effect and the lost-request flag is set. -/
def execRequestDropped (_typ _tag : Byte) (_body : List Byte) (s : State) : Host.Outcome State Fault Refusal :=
  .next (if Config.replyCapacity ≤ s.mlc.replies.length then s.dropRequest else s)

/-! ### Replies on MISO (R198) -/

/-- What the next byte clocked out on MISO carries while CS# is low (R198): the next byte of the reply at the head of the
queue, and 0xFF between replies and while the queue is empty. After a reset the queue is empty, so it is 0xFF (R208). -/
def Mlc.misoByte (m : Mlc) : Byte :=
  match m.miso, m.replies with
  | .gap, _ => 0xFF
  | .reply _, [] => 0xFF
  | .reply n, r :: _ => byteAt r.frame n

/-- One byte is clocked out on MISO: with its last byte the head reply leaves the queue, and one 0xFF follows it (R198). -/
def Mlc.clock (m : Mlc) : Mlc :=
  match m.miso, m.replies with
  | .gap, _ => { m with miso := .reply 0 }
  | .reply _, [] => m
  | .reply n, r :: l =>
    if n + 1 < r.frame.length then { m with miso := .reply (n + 1) } else { m with miso := .gap, replies := l }

/-- The bytes that MISO carries while `n` bytes are clocked out, and the controller after them. -/
def Mlc.clockOut : Nat → Mlc → List Byte × Mlc
  | 0, m => ([], m)
  | n + 1, m =>
    match clockOut n m.clock with
    | (l, m') => (m.misoByte :: l, m')

/-- How many bytes are clocked out until the reply at the head of the queue has gone. -/
def Mlc.bytesToGo (m : Mlc) : Nat :=
  match m.miso, m.replies with
  | _, [] => 0
  | .gap, r :: _ => r.frame.length + 1
  | .reply n, r :: _ => max 1 (r.frame.length - n)

/-- A reply partly sent is sent again from its sync byte at the next assertion of CS# (R198; log entry 11). -/
def Mlc.rewind (m : Mlc) : Mlc := { m with miso := .reply 0 }

/-! ### Discarded frames and the port (R196, R198) -/

/-- A frame is discarded (R196): counted, saturating, and a LINK notice queued with the type and tag reached; the receiver
is in HUNT. In the start-up scan too (R196, R200; log entry 42). -/
def State.discard (subtype : Nat) (typ tag : Option Byte) (s : State) : State :=
  let s := s.mapMlc fun m => { m with discarded := satAdd 65535 m.discarded 1, rx := .hunt }
  s.notice .link subtype 0 (opt (fun b => [b]) typ ++ opt (fun b => [b]) tag ++ u16 s.mlc.discarded)

/-- FRAME_BAD_LENGTH (R196): a length above 2,048 discards the frame. -/
def execFrameBadLength (len : Half) (s : State) : Host.Outcome State Fault Refusal :=
  .next (if Config.maxBody < len.toNat then s.discard 0 none none else s)

/-- FRAME_BAD_CHECK (R196): a whole frame whose check differs from the one received is discarded. -/
def execFrameBadCheck (typ tag : Byte) (body : List Byte) (check : Half) (s : State) :
    Host.Outcome State Fault Refusal :=
  .next (if crc16 (messageChecked typ tag body) ≠ check then s.discard 1 (some typ) (some tag) else s)

/-- CS_DEASSERTED (R196): in any state but HUNT the partial frame is discarded; the receiver is in HUNT. A reply partly
sent stays at the head of the queue and goes out again from its sync byte (R198). -/
def execCsDeasserted (mosi : List Byte) (s : State) : Host.Outcome State Fault Refusal :=
  let rx := (s.mlc.rx.feedAll mosi).1
  let s := s.mapMlc Mlc.rewind
  .next (if rx = .hunt then s.mapMlc fun m => { m with rx := .hunt } else s.discard 2 rx.reached.1 rx.reached.2)

/-- REPLY_CLOCKED_OUT (R198): the bytes left of the reply at the head of the queue are clocked out, and with the last of
them the reply leaves the queue. -/
def execReplyClockedOut (s : State) : Host.Outcome State Fault Refusal :=
  .next (s.mapMlc fun m => (m.clockOut m.bytesToGo).2)

end Sys2Proof.Machine
end

