-- ==== Sys2Proof/Machine/Jobs.lean ====
section
/-! DEFINITION. The job requests (chapter 1) and the upload requests (chapter 2). -/

namespace Sys2Proof.Machine

/-! ### Handles (R2) -/

/-- The handle check of R2 before a request's own checks. -/
def withJob (f : HandleField) (own : Handle → Job → State → Answer) (s : State) : Answer :=
  match toFin? 64 f.slot with
  | none => refuse .value s
  | some i =>
    match s.jobOf { slot := i, gen := f.gen } with
    | none => refuse .none s
    | some j => own { slot := i, gen := f.gen } j s

/-- A request whose body begins with a handle (R2): a body too short to hold it is refused LENGTH, the handle is checked
next, and the request's own rule looks at the bytes behind it, their number first. That the handle comes before any other
LENGTH, where R197 puts some of them first, is log entry 36 (DESIGN CHOICE). -/
def longHandleRequest (own : List Byte → Handle → Job → State → Answer) (body : List Byte) (s : State) : Answer :=
  match body with
  | a :: g :: l => withJob ⟨a.toNat, g⟩ (own l) s
  | _ => refuse .length s

/-- A request whose body is a handle alone; more bytes behind a handle that passes are refused LENGTH (R197). -/
def handleRequest (body : List Byte) (own : Handle → Job → State → Answer) (s : State) : Answer :=
  longHandleRequest (fun l h j s => if l = [] then own h j s else refuse .length s) body s

/-! ### JOB_OPEN (R3, R4) -/

/-- The next generation of a slot: after 255 comes 1 (R1). -/
def nextGen (g : Byte) : Byte := if g = 255 then 1 else g + 1

/-- The lowest-numbered free slot (R1). -/
def State.freeSlot (s : State) : Option (Fin 64) := (List.finRange 64).find? fun i => s.jobs[i].job.isNone

/-- A new job record (R4, and the initial values of 1.1). -/
def JobOpenValues.record (v : JobOpenValues) (filter : Fin 32) (cls : Fin 8) (now : Time) : Job :=
  { state := if v.stream then .queued else .opened, account := v.account, key := v.key, label := v.label, ink := v.ink,
    sides := v.sides, grade := v.grade, copies := v.copies, urgent := v.urgent, jam := v.jam, stream := v.stream,
    filter, cls, sheets := 0, closed := false, openSheet := none, press := none, cursor := .next 1 1, reprint := [],
    delivered := 0, faces := 0, lost := 0, charged := 0, coming := none, endRecord := none, openedAt := now,
    endedAt := none }

/-- A JOB_OPEN that passes R3: slot and handle, record, and the queue for a stream job (R4). -/
def State.openJob (i : Fin 64) (v : JobOpenValues) (filter : Fin 32) (cls : Fin 8) (s : State) : State :=
  let g := nextGen s.jobs[i].gen
  let s' := s.mapSlot i fun _ => { gen := g, job := some (v.record filter cls s.tb) }
  if v.stream then s'.mapRu (Ru.insert cls { handle := { slot := i, gen := g }, urgent := v.urgent }) else s'

/-- The reply of an accepted JOB_OPEN: handle, class and filter number (R4). -/
def openReply (i : Fin 64) (gen : Byte) (cls : Fin 8) (filter : Fin 32) : List Byte :=
  Handle.bytes { slot := i, gen } ++ u8 cls.val ++ u8 filter.val

/-- Checks 5 to 7 of R3 and the acceptance. -/
def State.openChecked (v : JobOpenValues) (s : State) : Answer :=
  match s.freeSlot with
  | none => refuse .full s
  | some i =>
    match s.ru.route v.key v.ink v.sides v.label with
    | none => refuse .route s
    | some f =>
      let c := s.ru.filters[f].cls
      if v.stream && !s.ru.queues[c].room then { status := .full, body := u8 c.val, state := s }
      else accept (openReply i (nextGen s.jobs[i].gen) c f) (s.openJob i v f c)

/-- JOB_OPEN's answer (R3). -/
def jobOpen (body : List Byte) (s : State) : Answer :=
  match jobOpenBody body with
  | none => refuse .length s
  | some b =>
    match b.values with
    | none => refuse .value s
    | some v => if s.mu.accounts[v.account].present then s.openChecked v else refuse .none s

/-- JOB_OPEN (R3, R4). -/
def execJobOpen (tag : Byte) (body : List Byte) (s : State) : Host.Outcome State Fault Refusal :=
  .next (takeRequest 0x10 tag false (jobOpen body) s)

/-! ### SHEET_BEGIN (R30 to R33) -/

/-- A declared face as a face of the record, and whether it was changed (R31). -/
def FaceDecl.settle (ink : Ink) (d : FaceDecl) (declared : Ink) : Face × Bool :=
  match declared, ink with
  | .mono, _ => (⟨.mono, 0, d.length⟩, false)
  | .color, .mono => (⟨.mono, 0, d.length⟩, true)
  | .color, .color => (⟨.color, min 100 d.coverage, d.length⟩, decide (100 < d.coverage))

/-- A face's values checked (R30 check 4) and settled. -/
def FaceDecl.face (ink : Ink) (d : FaceDecl) : Option (Face × Bool) :=
  match ink? d.ink with
  | some i => if 1 ≤ d.length then some (d.settle ink i) else none
  | none => none

/-- The one or two faces of a declared sheet (R30 check 4). -/
def facesOf (ink : Ink) : List FaceDecl → Option ((Face × Bool) × Option (Face × Bool))
  | [a] => (a.face ink).map fun x => (x, none)
  | [a, b] =>
    match a.face ink, b.face ink with
    | some x, some y => some (x, some y)
    | _, _ => none
  | _ => none

/-- The record of a new sheet (R32). -/
def newSheet (x : Face × Bool) (y : Option (Face × Bool)) : SheetRecord :=
  { complete := false, face1 := x.1, face2 := y.map Prod.fst, start := none, received := 0 }

/-- A face in the reply of SHEET_BEGIN: recorded ink and coverage, and the changed flag. -/
def faceReply (x : Face × Bool) : List Byte := u8 x.1.ink.code ++ u8 x.1.coverage ++ flag x.2

/-- An accepted SHEET_BEGIN's state (R32): the open sheet abandoned, the new record written, and the sheet open. -/
def State.beginSheet (i : Fin 64) (n : Nat) (r : SheetRecord) (s : State) : State :=
  let s := s.abandonOpen i
  let s := s.mapSmm (Smm.mapSlot i fun sp => { sp with sheets := sp.sheets.take (n - 1) ++ [r] })
  s.mapJob i fun j => { j with openSheet := some n }

/-- SHEET_BEGIN after its handle (R30 checks 2 to 6). -/
def sheetBegin (l : List Byte) (h : Handle) (j : Job) (s : State) : Answer :=
  match sheetBody l with
  | none => refuse .length s
  | some decls =>
    if j.closed then refuse .state s
    else match facesOf j.ink decls with
      | none => refuse .value s
      | some (x, y) =>
        if y.isSome ∧ j.sides = .simplex then refuse .value s
        else if j.openSheet.isNone ∧ Config.maxSheets ≤ j.sheets then refuse .full s
        else
          let r := newSheet x y
          { status := if j.openSheet.isSome then .abandoned else .ok
            body := u16 (j.sheets + 1) ++ list8 faceReply (x :: y.toList) ++ u32 r.total
            state := s.beginSheet h.slot (j.sheets + 1) r }

/-- SHEET_BEGIN (R30 to R32). -/
def execSheetBegin (tag : Byte) (body : List Byte) (s : State) : Host.Outcome State Fault Refusal :=
  .next (takeRequest 0x11 tag false (longHandleRequest sheetBegin body) s)

/-! ### FACE_DATA (R34 to R37) -/

/-- Where the open sheet stands: its number, received count and bytes to come. -/
def sheetProgress (n : Nat) (r : SheetRecord) : List Byte := u16 n ++ u32 r.received ++ u32 (r.total - r.received)

/-- A sheet completes (R37): its record COMPLETE, the sheet count, the open sheet absent, and a dispatch opportunity of
the bound engine when the job is ACTIVE. -/
def State.completeSheet (i : Fin 64) (n : Nat) (j : Job) (s : State) : State :=
  let s := s.mapSmm (Smm.mapSheet i n fun r => { r with complete := true })
  let s := s.mapJob i fun j => { j with sheets := j.sheets + 1, openSheet := none }
  match j.state, j.press with
  | .active, some p => s.opportunity p
  | _, _ => s

/-- An accepted FACE_DATA (R35). -/
def State.storeFaceData (h : Handle) (n : Nat) (j : Job) (r : SheetRecord) (chunk : List Byte) (s : State) : State :=
  let s := s.mapSmm (Smm.storeChunk h n chunk)
  if r.received + chunk.length = r.total then s.completeSheet h.slot n j else s

/-- FACE_DATA after its handle (R34 checks 2 to 6). -/
def faceData (l : List Byte) (h : Handle) (j : Job) (s : State) : Answer :=
  match chunkBody l with
  | none => refuse .length s
  | some chunk =>
    if j.closed then refuse .state s
    else match j.openSheet.bind fun n => (s.smm.sheet? h.slot n).map fun r => (n, r) with
      | none => refuse .state s
      | some (n, r) =>
        if r.total < r.received + chunk.length then { status := .length, body := sheetProgress n r, state := s }
        else if s.smm.slots[h.slot].needsExtent chunk.length && s.smm.free.isEmpty then
          { status := .spool, body := sheetProgress n r, state := s }
        else
          let got := r.received + chunk.length
          accept (sheetProgress n { r with received := got } ++ flag (decide (got = r.total)))
            (s.storeFaceData h n j r chunk)

/-- FACE_DATA (R34, R35). -/
def execFaceData (tag : Byte) (body : List Byte) (s : State) : Host.Outcome State Fault Refusal :=
  .next (takeRequest 0x12 tag false (longHandleRequest faceData body) s)

/-! ### JOB_CLOSE (R11, R12) -/

/-- The cursor of a stream job normalised at its close (R12). -/
def Job.normalised (j : Job) : Cursor :=
  match j.cursor with
  | .next c n => if n = j.sheets + 1 then (if c < j.copies then .next (c + 1) 1 else .allDispatched) else .next c n
  | .allDispatched => .allDispatched

/-- A dispatch opportunity of a job's bound engine, if it has one. -/
def State.opportunityOf (j : Job) (s : State) : State :=
  match j.press with
  | some p => s.opportunity p
  | none => s

/-- The done test of a stream job at its close (R12, R15): a QUEUED one is taken out of its queue first. -/
def State.closeTest (h : Handle) (s : State) : State :=
  match s.jobs[h.slot].job with
  | some j =>
    if s.doneCondition j then
      (if j.state = .queued then s.mapRu (Ru.remove j.cls h) else s).enterFinal h.slot .done none
    else s
  | none => s

/-- An accepted JOB_CLOSE (R11, R12). -/
def State.closeJob (h : Handle) (j : Job) (s : State) : State :=
  if j.stream then
    let s := s.mapJob h.slot fun j => { j with closed := true, cursor := j.normalised }
    (s.opportunityOf j).closeTest h
  else
    (s.mapJob h.slot fun j => { j with closed := true, state := .queued }).mapRu
      (Ru.insert j.cls { handle := h, urgent := j.urgent })

/-- JOB_CLOSE's answer (R11). -/
def jobClose (h : Handle) (j : Job) (s : State) : Answer :=
  if j.state.final || decide (j.state = .ending) || j.closed then refuse .state s
  else if j.openSheet.isSome then refuse .state s
  else if j.sheets = 0 then refuse .value s
  else if !j.stream && !s.roomFor j then refuse .full s
  else accept (u16 j.sheets) (s.closeJob h j)

/-- JOB_CLOSE (R11, R12). -/
def execJobClose (tag : Byte) (body : List Byte) (s : State) : Host.Outcome State Fault Refusal :=
  .next (takeRequest 0x13 tag false (handleRequest body jobClose) s)

/-! ### JOB_CANCEL (R13) -/

/-- What every cancel does to the job (R13, R7): the open sheet abandoned, the upload closed, the reprint list empty. -/
def State.cancelUpload (i : Fin 64) (s : State) : State :=
  (s.abandonOpen i).mapJob i fun j => { j with closed := true, reprint := [] }

/-- A job with sheets in flight goes to ENDING with reason CANCELLED (R13). -/
def Job.toEnding (j : Job) : Job :=
  { j with state := .ending, cursor := .allDispatched, coming := some { reason := .cancelled, failedSheet := none } }

/-- JOB_CANCEL's answer, by the job's state (R13). -/
def jobCancel (h : Handle) (j : Job) (s : State) : Answer :=
  let i := h.slot
  match j.state with
  | .opened => accept (u8 JobState.cancelled.code) ((s.cancelUpload i).enterFinal i .cancelled none)
  | .queued =>
    accept (u8 JobState.cancelled.code)
      (((s.mapRu (Ru.remove j.cls h)).cancelUpload i).enterFinal i .cancelled none)
  | .active =>
    if s.pathCountOf j = 0 then accept (u8 JobState.cancelled.code) ((s.cancelUpload i).enterFinal i .cancelled none)
    else
      let s := (s.cancelUpload i).mapJob i Job.toEnding
      accept (u8 JobState.ending.code) s
  | _ => refuse .state s

/-- JOB_CANCEL (R13). -/
def execJobCancel (tag : Byte) (body : List Byte) (s : State) : Host.Outcome State Fault Refusal :=
  .next (takeRequest 0x14 tag false (handleRequest body jobCancel) s)

/-! ### JOB_QUERY, JOB_LIST, JOB_RELEASE, JOB_REQUEUE (R19 to R21, R9, R41) -/

/-- The fields of a job record in the order of 1.1 (R19). -/
def Job.bytes (h : Handle) (j : Job) : List Byte :=
  h.bytes ++ u8 j.state.code ++ u16 j.account.val ++ u32 j.key.toNat ++ list8 (fun b => [b]) j.label ++
    u8 j.ink.code ++ u8 j.sides.code ++ u8 j.grade.val ++ u16 j.copies ++ flag j.urgent ++ u8 j.jam.code ++
    flag j.stream ++ u8 j.filter.val ++ u8 j.cls.val ++ u16 j.sheets ++ flag j.closed ++ opt u16 j.openSheet ++
    opt (fun p : Fin 16 => u8 p.val) j.press ++ j.cursor.bytes ++ list8 CopySheet.bytes j.reprint ++
    u32 j.delivered ++ u32 j.faces ++ u32 j.lost ++ u32 j.charged ++ opt EndRecord.bytes j.endRecord ++
    timeBytes j.openedAt ++ opt timeBytes j.endedAt

/-- The open sheet's received count and declared total (R41). One presence byte stands before the two: log entry 10 (DESIGN
CHOICE). -/
def State.openProgress (s : State) (i : Fin 64) (j : Job) : List Byte :=
  opt (fun r : SheetRecord => u32 r.received ++ u32 r.total) (j.openSheet.bind (s.smm.sheet? i))

/-- The spool figures of a job (R41). -/
def State.spoolBytes (s : State) (i : Fin 64) (j : Job) : List Byte :=
  u16 s.smm.slots[i].chain.length ++ u16 s.smm.slots[i].wpos.pos ++ u16 s.smm.slots[i].wpos.off ++ s.openProgress i j

/-- JOB_QUERY's answer (R19, R41). The spool figures come after the fields of R19 and the path count: log entry 10 (DESIGN
CHOICE). -/
def jobQuery (h : Handle) (j : Job) (s : State) : Answer :=
  accept (j.bytes h ++ u8 (s.pathCountOf j) ++ s.spoolBytes h.slot j) s

/-- JOB_QUERY (R19). -/
def execJobQuery (tag : Byte) (body : List Byte) (s : State) : Host.Outcome State Fault Refusal :=
  .next (takeRequest 0x15 tag false (handleRequest body jobQuery) s)

/-- Whether a job is selected by a JOB_LIST: an empty state set selects every state (R20). Bit 7 of the set stands for no
state and is ignored, also where it is the only one set: log entry 32 (DESIGN CHOICE). -/
def Job.listed (set : Byte) (account : Option Nat) (j : Job) : Bool :=
  (decide (set.toNat % 128 = 0) || set.getLsbD j.state.code) &&
    match account with
    | some a => decide (j.account.val = a)
    | none => true

/-- The entry of a slot in a JOB_LIST reply. -/
def State.listEntry (s : State) (i : Fin 64) (j : Job) : List Byte :=
  (s.handleAt i).bytes ++ u8 j.state.code ++ u16 j.account.val ++ u8 j.cls.val ++
    opt (fun p : Fin 16 => u8 p.val) j.press

/-- The selected jobs, in ascending slot order. -/
def State.selected (s : State) (set : Byte) (account : Option Nat) : List (Fin 64 × Job) :=
  (List.finRange 64).filterMap fun i =>
    match s.jobs[i].job with
    | some j => if j.listed set account then some (i, j) else none
    | none => none

/-- The reply of a JOB_LIST. -/
def State.jobListReply (s : State) (set : Byte) (account : Option Nat) : List Byte :=
  list8 (fun x : Fin 64 × Job => s.listEntry x.1 x.2) (s.selected set account)

/-- JOB_LIST's answer (R20). -/
def jobList (body : List Byte) (s : State) : Answer :=
  match body with
  | [] => refuse .length s
  | set :: l =>
    match optField 2 l with
    | .badLength => refuse .length s
    | .badPresence => refuse .value s
    | .absent => accept (s.jobListReply set none) s
    | .present f => if 255 < half f 0 then refuse .value s else accept (s.jobListReply set (some (half f 0))) s

/-- JOB_LIST (R20). -/
def execJobList (tag : Byte) (body : List Byte) (s : State) : Host.Outcome State Fault Refusal :=
  .next (takeRequest 0x16 tag false (jobList body) s)

/-- The reply of a JOB_RELEASE: end record and counts (R21). -/
def releaseReply (j : Job) : List Byte :=
  opt EndRecord.bytes j.endRecord ++ u32 j.delivered ++ u32 j.faces ++ u32 j.lost ++ u32 j.charged

/-- JOB_RELEASE's answer (R21). -/
def jobRelease (h : Handle) (j : Job) (s : State) : Answer :=
  if j.state.final then accept (releaseReply j) (s.mapSlot h.slot fun sl => { sl with job := none })
  else refuse .state s

/-- JOB_RELEASE (R21). -/
def execJobRelease (tag : Byte) (body : List Byte) (s : State) : Host.Outcome State Fault Refusal :=
  .next (takeRequest 0x17 tag false (handleRequest body jobRelease) s)

/-- A job returned to its queue head by request, and its press unbound (R9, R8, R90). -/
def State.requeue (h : Handle) (j : Job) (s : State) : State :=
  match j.press with
  | some p => (s.returnJob h j).unbind p
  | none => s.returnJob h j

/-- JOB_REQUEUE's answer (R9). -/
def jobRequeue (h : Handle) (j : Job) (s : State) : Answer :=
  if j.state ≠ .active then refuse .state s
  else if s.pathCountOf j ≠ 0 then refuse .state s
  else if !s.roomFor j then refuse .full s
  else accept [] (s.requeue h j)

/-- JOB_REQUEUE (R9). -/
def execJobRequeue (tag : Byte) (body : List Byte) (s : State) : Host.Outcome State Fault Refusal :=
  .next (takeRequest 0x18 tag false (handleRequest body jobRequeue) s)

end Sys2Proof.Machine
end

