-- ==== Sys2Proof/Machine/Routing.lean ====
section
/-! DEFINITION. The filter and class requests (chapter 3). -/

namespace Sys2Proof.Machine

/-- Change one filter. -/
def Ru.mapFilter (i : Fin 32) (f : Filter → Filter) (r : Ru) : Ru := { r with filters := r.filters.set i (f r.filters[i]) }

/-- The fields a FILTER_SET writes (R45): the compare length clamped to the pattern length, the filter left disabled. -/
def FilterBody.write (b : FilterBody) (ink : InkReq) (sides : SidesReq) (cls : Fin 8) : Filter :=
  { enabled := false, value := b.value, mask := b.mask, ink, sides, pattern := b.pattern,
    compare := min b.compare b.pattern.length, cls }

/-- A FILTER_SET whose filter is disabled (R45 check 5). The reply carries the clamped flag whether or not the compare
length was clamped: log entry 10 (DESIGN CHOICE). -/
def filterWrite (i : Fin 32) (b : FilterBody) (s : State) : Answer :=
  match inkReq? b.ink, sidesReq? b.sides, toFin? 8 b.cls with
  | some ink, some sides, some cls =>
    accept (u8 i.val ++ u8 (min b.compare b.pattern.length) ++ flag (decide (b.pattern.length < b.compare)))
      (s.mapRu (Ru.mapFilter i fun _ => b.write ink sides cls))
  | _, _, _ => refuse .value s

/-- FILTER_SET's answer (R45). -/
def filterSet (body : List Byte) (s : State) : Answer :=
  match filterBody body with
  | none => refuse .length s
  | some b =>
    match toFin? 32 b.filter with
    | none => refuse .value s
    | some i => if s.ru.filters[i].enabled then refuse .enabled s else filterWrite i b s

/-- FILTER_SET (R45). -/
def execFilterSet (tag : Byte) (body : List Byte) (s : State) : Host.Outcome State Fault Refusal :=
  .next (takeRequest 0x20 tag false (filterSet body) s)

/-- The wanted state of FILTER_ENABLE: enabled or disabled (R46, R211). -/
def wanted? (b : Byte) : Option Bool :=
  match b.toNat with
  | 0 => some true
  | 1 => some false
  | _ => none

/-- Code of the state a filter had, as FILTER_ENABLE's reply carries it. -/
def enabledCode (b : Bool) : Nat := if b then 0 else 1

/-- FILTER_ENABLE's answer (R46). -/
def filterEnable (body : List Byte) (s : State) : Answer :=
  match body with
  | [f, w] =>
    match toFin? 32 f.toNat, wanted? w with
    | some i, some on =>
      accept (u8 (enabledCode s.ru.filters[i].enabled)) (s.mapRu (Ru.mapFilter i fun x => { x with enabled := on }))
    | _, _ => refuse .value s
  | _ => refuse .length s

/-- FILTER_ENABLE (R46). -/
def execFilterEnable (tag : Byte) (body : List Byte) (s : State) : Host.Outcome State Fault Refusal :=
  .next (takeRequest 0x21 tag false (filterEnable body) s)

/-- The fields of a filter in the order of R44. -/
def Filter.bytes (f : Filter) : List Byte :=
  flag f.enabled ++ u32 f.value.toNat ++ u32 f.mask.toNat ++ u8 f.ink.code ++ u8 f.sides.code ++
    list8 (fun b => [b]) f.pattern ++ u8 f.compare ++ u8 f.cls.val

/-- FILTER_QUERY's answer (R47). -/
def filterQuery (body : List Byte) (s : State) : Answer :=
  match body with
  | [f] =>
    match toFin? 32 f.toNat with
    | some i => accept s.ru.filters[i].bytes s
    | none => refuse .value s
  | _ => refuse .length s

/-- FILTER_QUERY (R47). -/
def execFilterQuery (tag : Byte) (body : List Byte) (s : State) : Host.Outcome State Fault Refusal :=
  .next (takeRequest 0x22 tag false (filterQuery body) s)

/-- Set a class queue's capacity (R57). -/
def Ru.setCapacity (c : Fin 8) (n : Nat) (r : Ru) : Ru :=
  { r with queues := r.queues.set c { r.queues[c] with capacity := n } }

/-- A class queue's capacity, count and flags. -/
def ClassQueue.figures (q : ClassQueue) : List Byte := u8 q.capacity ++ u8 q.entries.length ++ q.flagsByte

/-- A CLASS_SET of a class that exists (R57). -/
def classWrite (c : Fin 8) (n : Nat) (s : State) : Answer :=
  if n = 0 ∨ 64 < n then refuse .value s
  else if n < s.ru.queues[c].entries.length then refuse .state s
  else accept (ClassQueue.figures { s.ru.queues[c] with capacity := n }) (s.mapRu (Ru.setCapacity c n))

/-- CLASS_SET's answer (R57). -/
def classSet (body : List Byte) (s : State) : Answer :=
  match body with
  | [c, n] =>
    match toFin? 8 c.toNat with
    | some c => classWrite c n.toNat s
    | none => refuse .value s
  | _ => refuse .length s

/-- CLASS_SET (R57). -/
def execClassSet (tag : Byte) (body : List Byte) (s : State) : Host.Outcome State Fault Refusal :=
  .next (takeRequest 0x23 tag false (classSet body) s)

/-- The account of a queued job, from its record (R58). -/
def State.accountOf (s : State) (h : Handle) : Nat :=
  match s.jobOf h with
  | some j => j.account.val
  | none => 0

/-- A queue entry in CLASS_QUERY: handle, urgent mark, account (R58). -/
def State.queueEntryBytes (s : State) (e : QueueEntry) : List Byte :=
  e.handle.bytes ++ flag e.urgent ++ u16 (s.accountOf e.handle)

/-- CLASS_QUERY's answer (R58). The list of jobs has its own count byte beside the count before the flags: log entry 10
(DESIGN CHOICE). -/
def classQuery (body : List Byte) (s : State) : Answer :=
  match body with
  | [c] =>
    match toFin? 8 c.toNat with
    | some c => accept (s.ru.queues[c].figures ++ list8 s.queueEntryBytes s.ru.queues[c].entries) s
    | none => refuse .value s
  | _ => refuse .length s

/-- CLASS_QUERY (R58). -/
def execClassQuery (tag : Byte) (body : List Byte) (s : State) : Host.Outcome State Fault Refusal :=
  .next (takeRequest 0x24 tag false (classQuery body) s)

end Sys2Proof.Machine
end

