-- ==== Sys2Proof/Machine/PressRequests.lean ====
section
/-! DEFINITION. The press requests (chapters 4 and 5). -/

namespace Sys2Proof.Machine

/-- A request whose body is a press number alone (4.2). -/
def pressRequest (body : List Byte) (own : Fin 16 → State → Answer) (s : State) : Answer :=
  match body with
  | [b] =>
    match toFin? 16 b.toNat with
    | some p => own p s
    | none => refuse .value s
  | _ => refuse .length s

/-! ### PRESS_SET (R63, R64) -/

/-- Write a profile but for its zone, which moves in a step of its own (R64 step 3). -/
def Press.writeProfile (f : Profile) (pr : Press) : Press :=
  { pr with profile := { f with zone := pr.profile.zone } }

/-- The effective capabilities computed again from profile and report (R62). -/
def Press.recompute (pr : Press) : Press :=
  { pr with effective := pr.reported.map fun r => pr.profile.caps.inter r.caps }

/-- The silence of R78, detected when the deadline has been reached. -/
def State.checkSilence (p : Fin 16) (s : State) : State :=
  match s.presses[p].silenceAt with
  | some t =>
    if decide (s.presses[p].link = .online) && reached s.tb t && !s.silent p then s.alert p .linkSilent 0 else s
  | none => s

/-- A press moved to another zone, both patterns derived again (R64 step 3, R189). -/
def State.moveZone (p : Fin 16) (z : Fin 4) (s : State) : State :=
  let old := s.presses[p].profile.zone
  if old = z then s
  else ((s.mapPress p fun pr => { pr with profile := { pr.profile with zone := z } }).derivePattern old).derivePattern z

/-- An accepted PRESS_SET (R64). -/
def State.setProfile (p : Fin 16) (f : Profile) (s : State) : State :=
  if s.presses[p].link = .disabled then s.mapPress p fun pr => { pr with profile := f }
  else
    ((((s.mapPress p (Press.writeProfile f)).mapPress p Press.recompute).checkSilence p).moveZone p f.zone).bindEvent p

/-- Whether a PRESS_SET may write the profile: a DISABLED press, or a READY one with no path entries (R63 check 4). -/
def Press.settable (pr : Press) : Bool := decide (pr.link = .disabled) || (pr.ready && pr.path.isEmpty)

/-- PRESS_SET's answer (R63). -/
def pressSet (body : List Byte) (s : State) : Answer :=
  match pressSetBody body with
  | none => refuse .length s
  | some b =>
    match toFin? 16 b.press with
    | none => refuse .value s
    | some p =>
      if !s.presses[p].settable then refuse .state s
      else match b.profile with
        | none => refuse .value s
        | some f => accept f.bytes (s.setProfile p f)

/-- PRESS_SET (R63, R64). -/
def execPressSet (tag : Byte) (body : List Byte) (s : State) : Host.Outcome State Fault Refusal :=
  .next (takeRequest 0x28 tag false (pressSet body) s)

/-! ### PRESS_ENABLE and PRESS_DISABLE (R66, R68) -/

/-- An accepted PRESS_ENABLE: a PROBE, counted, its timer started, and AWAITING entered (R66). -/
def State.enable (p : Fin 16) (s : State) : State :=
  (s.mapPress p fun pr => { pr with link := .awaiting }).probe p

/-- PRESS_ENABLE's answer (R66). -/
def pressEnable (p : Fin 16) (s : State) : Answer :=
  if s.presses[p].link = .online then refuse .state s
  else
    let s' := s.enable p
    accept (u8 s'.presses[p].link.code ++ u8 s'.presses[p].probes) s'

/-- PRESS_ENABLE (R66). -/
def execPressEnable (tag : Byte) (body : List Byte) (s : State) : Host.Outcome State Fault Refusal :=
  .next (takeRequest 0x29 tag false (pressRequest body pressEnable) s)

/-- A press record in DISABLED (R68 steps 1 and 3): timers stopped, unbound, no longer held, the reported fields, applied
window and last frame time absent. -/
def Press.disabled (pr : Press) : Press :=
  { pr.unbound with
    link := .disabled, reported := none, effective := none, applied := none, lastFrame := none, probeDeadline := none,
    held := false }

/-- The alert unit empties a press's table with no notices (R183), and its zone's pattern no longer counts it. -/
def State.emptyTableOf (p : Fin 16) (s : State) : State :=
  (s.mapAu fun au => { au with tables := au.tables.set p emptyTable }).handToZone p

/-- Steps 1 to 4 of R68. -/
def State.disable (p : Fin 16) (s : State) : State :=
  let online := decide (s.presses[p].link = .online)
  let s := (s.emptyTableOf p).mapPress p Press.disabled
  if online then s.markPending p else s

/-- PRESS_DISABLE's answer (R68). -/
def pressDisable (p : Fin 16) (s : State) : Answer :=
  if s.presses[p].link = .disabled then accept (opt Handle.bytes none) s
  else if !s.presses[p].path.isEmpty then refuse .state s
  else match s.presses[p].bound.bind fun h => (s.jobOf h).map fun j => (h, j) with
    | none => accept (opt Handle.bytes none) (s.disable p)
    | some (h, j) =>
      if s.roomFor j then accept (opt Handle.bytes (some h)) ((s.returnJob h j).disable p) else refuse .full s

/-- PRESS_DISABLE (R68). -/
def execPressDisable (tag : Byte) (body : List Byte) (s : State) : Host.Outcome State Fault Refusal :=
  .next (takeRequest 0x2A tag false (pressRequest body pressDisable) s)

/-! ### PRESS_QUERY (R69) -/

/-- A path entry in PRESS_QUERY (R69). -/
def PathEntry.bytes (e : PathEntry) : List Byte :=
  u16 e.tag.toNat ++ e.pair.bytes ++ u8 e.state.code ++ u24 e.charge ++ timeBytes e.dispatched ++
    opt timeBytes e.takenAt

/-- The reported fields in PRESS_QUERY: model, serial and capabilities, each absent unless ONLINE (R69). -/
def Press.reportedBytes (pr : Press) : List Byte :=
  opt (fun r : Reported => r.model.toList) pr.reported ++ opt (fun r : Reported => r.serial.toList) pr.reported ++
    opt (fun r : Reported => r.caps.bytes) pr.reported

/-- The link figures in PRESS_QUERY (R69). The announced window, one of the reported fields, is carried once, beside the
applied window: log entry 10 (DESIGN CHOICE). -/
def Press.linkBytes (now : Time) (pr : Press) : List Byte :=
  opt Caps.bytes pr.effective ++ opt (fun r : Reported => [r.announced]) pr.reported ++ opt u8 pr.applied ++
    opt (fun t : Time => timeBytes (now - t)) pr.lastFrame ++ u8 pr.probes ++ u16 pr.badChecks ++ u16 pr.tagCounter.toNat

/-- The dispatch state in PRESS_QUERY (R69). -/
def Press.dispatchBytes (pr : Press) : List Byte :=
  flag pr.held ++ opt (fun c : FeedCond => u8 c.code) pr.cond ++ opt Handle.bytes pr.bound ++
    list8 PathEntry.bytes pr.path

/-- The reply of PRESS_QUERY (R69). -/
def Press.record (now : Time) (pr : Press) : List Byte :=
  pr.profile.bytes ++ u8 pr.link.code ++ u8 pr.stateCode ++ pr.reportedBytes ++ pr.linkBytes now ++ pr.dispatchBytes

/-- PRESS_QUERY's answer (R69). -/
def pressQuery (p : Fin 16) (s : State) : Answer := accept (s.presses[p].record s.tb) s

/-- PRESS_QUERY (R69). -/
def execPressQuery (tag : Byte) (body : List Byte) (s : State) : Host.Outcome State Fault Refusal :=
  .next (takeRequest 0x2B tag false (pressRequest body pressQuery) s)

/-! ### PRESS_WRITEOFF (R108) -/

/-- An accepted PRESS_WRITEOFF: every entry lost, PURGE, one opportunity if the job is still bound, and the test for the
end of QUIESCING (R108, R111). -/
def State.writeOff (p : Fin 16) (s : State) : State :=
  let h := s.presses[p].bound
  ((((s.loseAll p s.presses[p].path).send p .purge).opportunityIfStill p h)).quiesceTest

/-- PRESS_WRITEOFF's answer (R108). -/
def pressWriteoff (p : Fin 16) (s : State) : Answer :=
  match s.presses[p].link with
  | .disabled => refuse .state s
  | .awaiting => accept (u8 0) (s.send p .purge)
  | .online =>
    if s.silent p then accept (u8 s.presses[p].path.length) (s.writeOff p) else refuse .state s

/-- PRESS_WRITEOFF (R108). -/
def execPressWriteoff (tag : Byte) (body : List Byte) (s : State) : Host.Outcome State Fault Refusal :=
  .next (takeRequest 0x2C tag false (pressRequest body pressWriteoff) s)

end Sys2Proof.Machine
end

