-- ==== Sys2Proof/Machine/Accounts.lean ====
section
/-! DEFINITION. The plan requests and CHARGE_QUOTE (chapter 6) and the account requests (chapter 7). -/

namespace Sys2Proof.Machine

/-! ### Plans (R115 to R117) -/

/-- A plan as PLAN_SET writes it: discount rates above 500 written as 500 (R116). -/
def Plan.clamped (pl : Plan) : Plan := { pl with d1 := min 500 pl.d1, d2 := min 500 pl.d2, d3 := min 500 pl.d3 }

/-- Whether a plan's values pass checks 4 and 5 of R115. -/
def Plan.sound (pl : Plan) : Bool :=
  (pl.rows.toList.all fun r => decide (r.rate ≤ 2000)) && ascends [pl.t1, pl.t2, pl.t3]

/-- The reply of PLAN_SET: number, rates as written, clamped flags (R116). The three flags are three yes-or-no bytes after
the three rates: log entry 10 (DESIGN CHOICE). -/
def planReply (i : Fin 8) (pl : Plan) : List Byte :=
  u8 i.val ++ u16 (min 500 pl.d1) ++ u16 (min 500 pl.d2) ++ u16 (min 500 pl.d3) ++ flag (decide (500 < pl.d1)) ++
    flag (decide (500 < pl.d2)) ++ flag (decide (500 < pl.d3))

/-- Write a plan. -/
def Mu.setPlan (i : Fin 8) (pl : Plan) (m : Mu) : Mu := { m with plans := m.plans.set i pl }

/-- PLAN_SET's answer (R115, R116). -/
def planSet (body : List Byte) (s : State) : Answer :=
  if body.length ≠ planLength then refuse .length s
  else match toFin? 8 (byteAt body 0).toNat with
    | none => refuse .value s
    | some i =>
      if (planBody body).sound then
        accept (planReply i (planBody body)) (s.mapMu (Mu.setPlan i (planBody body).clamped))
      else refuse .value s

/-- PLAN_SET (R115, R116). -/
def execPlanSet (tag : Byte) (body : List Byte) (s : State) : Host.Outcome State Fault Refusal :=
  .next (takeRequest 0x30 tag false (planSet body) s)

/-- A price row as carried. -/
def PriceRow.bytes (r : PriceRow) : List Byte := u16 r.paper ++ u16 r.mono ++ u16 r.base ++ u16 r.rate

/-- Every field of a plan (R117). -/
def Plan.bytes (pl : Plan) : List Byte :=
  pl.rows.toList.flatMap PriceRow.bytes ++ u32 pl.t1 ++ u32 pl.t2 ++ u32 pl.t3 ++ u16 pl.d1 ++ u16 pl.d2 ++
    u16 pl.d3 ++ u16 pl.minimum

/-- The accounts, OPEN or SUSPENDED, that name a plan (R117). -/
def Mu.usersOf (m : Mu) (i : Fin 8) : Nat :=
  (m.accounts.toList.filter fun a => a.present && decide (a.plan = i)).length

/-- PLAN_QUERY's answer (R117). The plan number is not among the fields it carries: log entry 10 (DESIGN CHOICE). -/
def planQuery (body : List Byte) (s : State) : Answer :=
  match body with
  | [b] =>
    match toFin? 8 b.toNat with
    | some i => accept (s.mu.plans[i].bytes ++ u16 (s.mu.usersOf i)) s
    | none => refuse .value s
  | _ => refuse .length s

/-- PLAN_QUERY (R117). -/
def execPlanQuery (tag : Byte) (body : List Byte) (s : State) : Host.Outcome State Fault Refusal :=
  .next (takeRequest 0x31 tag false (planQuery body) s)

/-! ### Account requests (R130 to R135) -/

/-- An account number of 0 to 255 (7.2). -/
def account? (a b : Byte) : Option (Fin 256) := toFin? 256 (be16 a b)

/-- A request whose body is an account number alone (R133 to R135). -/
def accountRequest (body : List Byte) (own : Fin 256 → State → Answer) (s : State) : Answer :=
  match body with
  | [a, b] =>
    match account? a b with
    | some n => own n s
    | none => refuse .value s
  | _ => refuse .length s

/-- A new account's record (R130). -/
def Account.opening (plan : Fin 8) (limit balance : Int) : Account :=
  { Account.absent with state := .opened, plan, limit, balance }

/-- Checks 4 and 5 of R130, and the acceptance. -/
def accountOpenAt (n : Fin 256) (plan : Fin 8) (limit balance : Int) (s : State) : Answer :=
  if s.mu.accounts[n].present then refuse .state s
  else if balance < -limit then refuse .funds s
  else accept (Account.opening plan limit balance).withAvailability
    (s.mapAccount n fun _ => Account.opening plan limit balance)

/-- ACCOUNT_OPEN's answer (R130). -/
def accountOpen (body : List Byte) (s : State) : Answer :=
  match body with
  | [a1, a0, p, l2, l1, l0, b3, b2, b1, b0] =>
    match account? a1 a0, toFin? 8 p.toNat with
    | some n, some plan =>
      if (be24 l2 l1 l0 : Int) ≤ Config.maxLimit ∧ Config.minBalance ≤ beInt b3 b2 b1 b0 ∧
          beInt b3 b2 b1 b0 ≤ Config.maxBalance then
        accountOpenAt n plan (be24 l2 l1 l0) (beInt b3 b2 b1 b0) s
      else refuse .value s
    | _, _ => refuse .value s
  | _ => refuse .length s

/-- ACCOUNT_OPEN (R130). -/
def execAccountOpen (tag : Byte) (body : List Byte) (s : State) : Host.Outcome State Fault Refusal :=
  .next (takeRequest 0x32 tag false (accountOpen body) s)

/-- An account as ACCOUNT_SET writes it (R131). -/
def Account.written (plan : Fin 8) (limit : Int) (suspend : Bool) (a : Account) : Account :=
  { a with plan, limit, state := if suspend then .suspended else .opened }

/-- Whether an ACCOUNT_SET is an availability event: it raises L, or moves SUSPENDED to OPEN (R131). -/
def Account.raisedBy (limit : Int) (suspend : Bool) (a : Account) : Bool :=
  decide (a.limit < limit) || (decide (a.state = .suspended) && !suspend)

/-- An availability event when one is due. -/
def State.riseIf (due : Bool) (n : Fin 256) (s : State) : State := if due then s.availabilityEvent n else s

/-- Checks 4 and 5 of R131, and the acceptance. -/
def accountSetAt (n : Fin 256) (plan : Fin 8) (limit : Int) (suspend : Bool) (s : State) : Answer :=
  let a := s.mu.accounts[n]
  if !a.present then refuse .none s
  else if a.balance - a.held < -limit then refuse .funds s
  else accept (a.written plan limit suspend).withAvailability
    ((s.mapAccount n (Account.written plan limit suspend)).riseIf (a.raisedBy limit suspend) n)

/-- ACCOUNT_SET's answer (R131). -/
def accountSet (body : List Byte) (s : State) : Answer :=
  match body with
  | [a1, a0, p, l2, l1, l0, f] =>
    match account? a1 a0, toFin? 8 p.toNat with
    | some n, some plan =>
      if (be24 l2 l1 l0 : Int) ≤ Config.maxLimit then accountSetAt n plan (be24 l2 l1 l0) (yes f) s
      else refuse .value s
    | _, _ => refuse .value s
  | _ => refuse .length s

/-- ACCOUNT_SET (R131). -/
def execAccountSet (tag : Byte) (body : List Byte) (s : State) : Host.Outcome State Fault Refusal :=
  .next (takeRequest 0x33 tag false (accountSet body) s)

/-- The applied delta of an adjustment (R132): a credit stops at the largest balance. -/
def Account.appliedDelta (delta : Int) (a : Account) : Int := min delta (max 0 (Config.maxBalance - a.balance))

/-- The reply of ACCOUNT_ADJUST: applied delta, clamped, new balance, availability (R132). -/
def adjustReply (delta applied : Int) (a : Account) : List Byte :=
  i32 applied ++ flag (decide (applied ≠ delta)) ++ i32 a.balance ++ i32 a.availability

/-- ACCOUNT_ADJUST of an account that exists (R132). -/
def accountAdjustAt (n : Fin 256) (delta : Int) (s : State) : Answer :=
  let a := s.mu.accounts[n]
  if !a.present then refuse .none s
  else if delta < 0 ∧ a.balance + delta - a.held < -a.limit then refuse .funds s
  else
    let d := if 0 < delta then a.appliedDelta delta else delta
    accept (adjustReply delta d { a with balance := a.balance + d })
      ((s.mapAccount n fun a => { a with balance := a.balance + d }).riseIf (decide (0 < d)) n)

/-- ACCOUNT_ADJUST's answer (R132). -/
def accountAdjust (body : List Byte) (s : State) : Answer :=
  match body with
  | [a1, a0, d3, d2, d1, d0] =>
    match account? a1 a0 with
    | some n => accountAdjustAt n (beInt d3 d2 d1 d0) s
    | none => refuse .value s
  | _ => refuse .length s

/-- ACCOUNT_ADJUST (R132). -/
def execAccountAdjust (tag : Byte) (body : List Byte) (s : State) : Host.Outcome State Fault Refusal :=
  .next (takeRequest 0x34 tag false (accountAdjust body) s)

/-- What ACCOUNT_QUERY carries of an account that exists (R133). -/
def State.accountReport (s : State) (n : Fin 256) : List Byte :=
  s.mu.accounts[n].withAvailability ++ u8 (s.liveJobsOf n).length ++ u8 (s.entriesOf n).length ++
    list8 (fun p : Fin 16 => u8 p.val) (s.waitingOn n)

/-- ACCOUNT_QUERY's answer (R133). -/
def accountQuery (n : Fin 256) (s : State) : Answer :=
  if s.mu.accounts[n].present then accept (s.accountReport n) s else accept (u8 AccountState.absent.code) s

/-- ACCOUNT_QUERY (R133). -/
def execAccountQuery (tag : Byte) (body : List Byte) (s : State) : Host.Outcome State Fault Refusal :=
  .next (takeRequest 0x35 tag false (accountRequest body accountQuery) s)

/-- An account with its period counters at 0 (R134). -/
def Account.newPeriod (a : Account) : Account := { a with faces := 0, sheets := 0, charged := 0 }

/-- ACCOUNT_PERIOD's answer (R134). -/
def accountPeriod (n : Fin 256) (s : State) : Answer :=
  let a := s.mu.accounts[n]
  if a.present then
    accept (u32 a.faces ++ u32 a.sheets ++ u32 a.charged ++ u32 a.shortfall) (s.mapAccount n Account.newPeriod)
  else refuse .none s

/-- ACCOUNT_PERIOD (R134). -/
def execAccountPeriod (tag : Byte) (body : List Byte) (s : State) : Host.Outcome State Fault Refusal :=
  .next (takeRequest 0x36 tag false (accountRequest body accountPeriod) s)

/-- ACCOUNT_CLOSE's answer (R135). -/
def accountClose (n : Fin 256) (s : State) : Answer :=
  let a := s.mu.accounts[n]
  if !a.present then refuse .none s
  else if !(s.liveJobsOf n).isEmpty || decide (0 < a.held) then refuse .state s
  else accept a.bytes (s.mapAccount n fun _ => Account.absent)

/-- ACCOUNT_CLOSE (R135). -/
def execAccountClose (tag : Byte) (body : List Byte) (s : State) : Host.Outcome State Fault Refusal :=
  .next (takeRequest 0x37 tag false (accountRequest body accountClose) s)

/-! ### CHARGE_QUOTE (R125, R126) -/

/-- A quoted face: as priced, and whether a COLOR face's coverage was clamped. -/
structure QuotedFace where
  face    : PricedFace
  clamped : Bool
  deriving DecidableEq, Repr

/-- A face of a quote with its coverage applied (R125). -/
def QuoteFace.quoted (f : QuoteFace) : Option QuotedFace :=
  match ink? f.ink with
  | some .mono => some ⟨(.mono, 0), false⟩
  | some .color => some ⟨(.color, min 100 f.coverage), decide (100 < f.coverage)⟩
  | none => none

/-- The one or two faces of a quote (R125 check 3). -/
def quotedFaces : List QuoteFace → Option (QuotedFace × Option QuotedFace)
  | [a] => a.quoted.map fun x => (x, none)
  | [a, b] =>
    match a.quoted, b.quoted with
    | some x, some y => some (x, some y)
    | _, _ => none
  | _ => none

/-- A face's applied coverage in the reply, with a clamped flag for a COLOR face (R126). No presence byte stands before the
flag, and a MONO face has neither: log entry 10 (DESIGN CHOICE). -/
def QuotedFace.bytes (x : QuotedFace) : List Byte :=
  u8 x.face.2 ++ if x.face.1 = .color then flag x.clamped else []

/-- The plan form's part of a quote's reply: every intermediate result of the stages (R126). -/
def quoteFigures (i : Fin 8) (pl : Plan) (q : Nat) (g : Fin 8) (x : QuotedFace) (y : Option QuotedFace) : List Byte :=
  let row := pl.rows[g]
  let gross := grossPrice row x.face (y.map QuotedFace.face)
  let tier := pl.tier q
  u8 i.val ++ u32 q ++ list8 QuotedFace.bytes (x :: y.toList) ++
    list8 (fun f : QuotedFace => u24 (facePrice row f.face.1 f.face.2)) (x :: y.toList) ++ u24 gross ++ u8 tier ++
    u16 (pl.rateOf tier) ++ u24 (discountOf gross (pl.rateOf tier)) ++
    u24 (pl.charge g x.face (y.map QuotedFace.face) q)

/-- The account form's addition: availability, and whether a reservation would be granted (R126). -/
def quoteAccount (a : Account) (net : Nat) : List Byte := i32 a.availability ++ flag (a.grants net)

/-- A quote in the account form (R125 check 4). -/
def quoteForAccount (n : Fin 256) (g : Fin 8) (x : QuotedFace) (y : Option QuotedFace) (s : State) : Answer :=
  let a := s.mu.accounts[n]
  if a.present then
    accept
      (quoteFigures a.plan (s.planOf n) a.faces g x y ++
        quoteAccount a ((s.planOf n).charge g x.face (y.map QuotedFace.face) a.faces)) s
  else refuse .none s

/-- A quote with its values checked (R125 checks 3 and 4). -/
def quoteChecked (b : QuoteBody) (s : State) : Answer :=
  match toFin? 8 b.grade, quotedFaces b.faces with
  | some g, some (x, y) =>
    match b.source with
    | .account n =>
      match toFin? 256 n with
      | some n => quoteForAccount n g x y s
      | none => refuse .value s
    | .plan n q =>
      match toFin? 8 n with
      | some i => accept (quoteFigures i s.mu.plans[i] q g x y) s
      | none => refuse .value s
  | _, _ => refuse .value s

/-- CHARGE_QUOTE's answer (R125, R126). -/
def chargeQuote (body : List Byte) (s : State) : Answer :=
  match quoteBody body with
  | .badLength => refuse .length s
  | .badSource => refuse .value s
  | .ok b => quoteChecked b s

/-- CHARGE_QUOTE (R125, R126). -/
def execChargeQuote (tag : Byte) (body : List Byte) (s : State) : Host.Outcome State Fault Refusal :=
  .next (takeRequest 0x38 tag false (chargeQuote body) s)

end Sys2Proof.Machine
end

