-- ==== Sys2Proof/Machine/Meters.lean ====
section
/-! DEFINITION. METER_READ, METER_SAVE and STORE_QUERY (chapter 8). -/

namespace Sys2Proof.Machine

/-- A press set of 16 flags alone in its body; an empty set names all 16 (R149, R159). -/
def pressSetRequest (body : List Byte) (own : List (Fin 16) → State → Answer) (s : State) : Answer :=
  match body with
  | [a, b] => own (pressSetOf (be16 a b)) s
  | _ => refuse .length s

/-- The newest stored record of a press as METER_READ carries it: its sequence and the four counters it holds (R149). -/
def Store.storedBytes (st : Store) (p : Fin 16) : List Byte :=
  opt (fun n : Newest => u32 n.sequence ++ (countersAt (slotContent st.flash n.sector n.slot)).bytes) st.newest[p]

/-- The figures of one press in METER_READ (R149). -/
def State.meterBytes (s : State) (p : Fin 16) : List Byte :=
  s.mu.meters[p].live.bytes ++ u16 s.mu.meters[p].since ++ flag s.store.marks[p].pending ++
    flag s.store.marks[p].forced ++ s.store.storedBytes p

/-- METER_READ's answer (R149). -/
def meterRead (l : List (Fin 16)) (s : State) : Answer := accept (list8 s.meterBytes l) s

/-- METER_READ (R149). -/
def execMeterRead (tag : Byte) (body : List Byte) (s : State) : Host.Outcome State Fault Refusal :=
  .next (takeRequest 0x39 tag false (pressSetRequest body meterRead) s)

/-- An accepted METER_SAVE: the presses marked and save owed set (R159). -/
def State.saveMeters (l : List (Fin 16)) (s : State) : State :=
  (s.markAll l).mapStore fun st => { st with saveOwed := true }

/-- METER_SAVE's answer (R159). -/
def meterSave (l : List (Fin 16)) (s : State) : Answer :=
  if s.store.state = .failed then refuse .state s
  else accept (s.saveMeters l).store.pendingBytes (s.saveMeters l)

/-- METER_SAVE (R159). -/
def execMeterSave (tag : Byte) (body : List Byte) (s : State) : Host.Outcome State Fault Refusal :=
  .next (takeRequest 0x40 tag false (pressSetRequest body meterSave) s)

/-- Code of a sector's role: 0 ACTIVE, 1 SPARE, 2 OLD (R151). -/
def Store.roleCode (st : Store) (k : Fin 4) : Nat :=
  if k = st.active then 0 else if st.spare = some k then 1 else 2

/-- The slot counts of a sector (R160). -/
def SlotCounts.bytes (c : SlotCounts) : List Byte := u16 c.free ++ u16 c.void ++ u16 c.record ++ u16 c.torn

/-- A newest-record entry (R151). -/
def Newest.bytes (n : Newest) : List Byte := u8 n.sector.val ++ u8 n.slot ++ u32 n.sequence

/-- The reply of STORE_QUERY (R160). The failed reason and its sector are one optional field, with the sector optional within
it: log entry 10 (DESIGN CHOICE). -/
def Store.report (st : Store) : List Byte :=
  u8 st.state.code ++ opt FailReason.bytes st.failed ++ ((List.finRange 4).flatMap fun k => u8 (st.roleCode k)) ++
    opt (fun k : Fin 4 => u8 k.val) st.victim ++ u8 st.attempts ++ u16 st.writeSlot ++ u32 st.nextSeq ++
    st.counts.toList.flatMap SlotCounts.bytes ++ st.pendingBytes ++ (set16 fun p => st.marks[p].forced) ++
    flag st.saveOwed ++ st.newest.toList.flatMap (opt Newest.bytes)

/-- STORE_QUERY's answer (R160). -/
def storeQuery (s : State) : Answer := accept s.store.report s

/-- STORE_QUERY (R160). -/
def execStoreQuery (tag : Byte) (body : List Byte) (s : State) : Host.Outcome State Fault Refusal :=
  .next (takeRequest 0x41 tag false (noBody body storeQuery) s)

end Sys2Proof.Machine
end

