-- ==== Sys2Proof/Machine/AlertRequests.lean ====
section
/-! DEFINITION. The alert requests (chapter 9), acknowledgements, the zone requests and the buttons (chapter 10). -/

namespace Sys2Proof.Machine

/-! ### ALERT_MODE_SET (R168) -/

/-- The kind of a code (R166). -/
def alertKind? (b : Byte) : Option AlertKind := AlertKind.all[b.toNat]?

/-- The mode as written: a jam and a silent press are never unheld (R168). -/
def clampMode (k : AlertKind) (m : AlertMode) : AlertMode :=
  match k, m with
  | .jam, .report => .retry
  | .jam, .ignore => .retry
  | .linkSilent, .report => .retry
  | .linkSilent, .ignore => .retry
  | _, m => m

/-- Write a kind's row of the response-mode table. -/
def Au.setMode (k : AlertKind) (row : ModeRow) (a : Au) : Au := { a with modes := a.modes.set k.code row }

/-- ALERT_MODE_SET's answer (R168). -/
def alertModeSet (body : List Byte) (s : State) : Answer :=
  match body with
  | [kb, mb, t1, t0] =>
    match alertKind? kb, alertMode? mb with
    | some k, some m =>
      if 1 ≤ be16 t1 t0 ∧ be16 t1 t0 ≤ 600 then
        accept
          (u8 k.code.val ++ u8 (clampMode k m).code ++ u16 (be16 t1 t0) ++ flag (decide (clampMode k m ≠ m)))
          (s.mapAu (Au.setMode k ⟨clampMode k m, be16 t1 t0⟩))
      else refuse .value s
    | _, _ => refuse .value s
  | _ => refuse .length s

/-- ALERT_MODE_SET (R168). -/
def execAlertModeSet (tag : Byte) (body : List Byte) (s : State) : Host.Outcome State Fault Refusal :=
  .next (takeRequest 0x48 tag false (alertModeSet body) s)

/-! ### ALERT_LIST (R181) -/

/-- An entry in ALERT_LIST (R181): the time left until its retry deadline in RETRY_WAIT. -/
def AlertEntry.bytes (now : Time) (k : AlertKind) (e : AlertEntry) : List Byte :=
  u8 k.code.val ++ u8 e.mode.code ++ u16 e.retry ++ u8 e.state.code ++ [e.detail] ++ timeBytes e.raisedAt ++
    u8 e.occurrences ++ flag e.acked ++ opt (fun t : Time => u24 (t - now).toNat) e.deadline

/-- The entries of a press with their kinds, in kind-code order. -/
def State.kindEntries (s : State) (p : Fin 16) : List (AlertKind × AlertEntry) :=
  AlertKind.all.filterMap fun k => (s.entry p k).map fun e => (k, e)

/-- The number of a press's entries in a state. -/
def State.entriesIn (s : State) (p : Fin 16) (st : AlertState) : Nat :=
  ((tableEntries s.au.tables[p]).filter fun e => decide (e.state = st)).length

/-- The summary of one press in ALERT_LIST (R181). -/
def State.alertSummary (s : State) (p : Fin 16) : List Byte :=
  flag s.presses[p].held ++ u8 (s.entriesIn p .active) ++ u8 (s.entriesIn p .retryWait) ++
    u8 (s.entriesIn p .clearWait) ++ u8 ((tableEntries s.au.tables[p]).filter fun e => !e.acked).length

/-- A row of the response-mode table as carried. -/
def ModeRow.bytes (r : ModeRow) : List Byte := u8 r.mode.code ++ u16 r.retry

/-- ALERT_LIST's reply with a press named (R181). -/
def State.alertsOf (s : State) (p : Fin 16) : List Byte :=
  flag s.presses[p].held ++ list8 (fun x : AlertKind × AlertEntry => x.2.bytes s.tb x.1) (s.kindEntries p)

/-- ALERT_LIST's reply with no press named (R181). -/
def State.alertsOfAll (s : State) : List Byte :=
  (List.finRange 16).flatMap s.alertSummary ++ s.au.modes.toList.flatMap ModeRow.bytes

/-- ALERT_LIST's answer (R181). -/
def alertList (body : List Byte) (s : State) : Answer :=
  match optField 1 body with
  | .badLength => refuse .length s
  | .badPresence => refuse .value s
  | .absent => accept s.alertsOfAll s
  | .present f =>
    match toFin? 16 (byteAt f 0).toNat with
    | some p => accept (s.alertsOf p) s
    | none => refuse .value s

/-- ALERT_LIST (R181). -/
def execAlertList (tag : Byte) (body : List Byte) (s : State) : Host.Outcome State Fault Refusal :=
  .next (takeRequest 0x49 tag false (alertList body) s)

/-! ### ALERT_CLEAR (R177) -/

/-- Whether ALERT_CLEAR removes an entry: one in CLEAR_WAIT or RETRY_WAIT. -/
def AlertEntry.clearable (e : AlertEntry) : Bool := decide (e.state ≠ .active)

/-- The kinds of a list whose entry ALERT_CLEAR removes. -/
def State.clearable (s : State) (p : Fin 16) (l : List AlertKind) : List AlertKind :=
  l.filter fun k => match s.entry p k with
    | some e => e.clearable
    | none => false

/-- Code of a kind's outcome: 0 NOT_PRESENT, 1 STILL_ACTIVE, 2 REMOVED (R177). -/
def State.clearOutcome (s : State) (p : Fin 16) (k : AlertKind) : List Byte :=
  match s.entry p k with
  | none => u8 0
  | some e => if e.clearable then u8 2 else u8 1

/-- ALERT_CLEAR of a press that exists (R177). -/
def alertClearAt (p : Fin 16) (l : List AlertKind) (s : State) : Answer :=
  let s' := s.removeEntries p .cleared (s.clearable p l)
  accept (list8 (s.clearOutcome p) l ++ flag s'.presses[p].held) s'

/-- ALERT_CLEAR's answer (R177). -/
def alertClear (body : List Byte) (s : State) : Answer :=
  match body with
  | [b, k1, k0] =>
    match toFin? 16 b.toNat with
    | some p => alertClearAt p (kindSetOf (be16 k1 k0)) s
    | none => refuse .value s
  | _ => refuse .length s

/-- ALERT_CLEAR (R177). -/
def execAlertClear (tag : Byte) (body : List Byte) (s : State) : Host.Outcome State Fault Refusal :=
  .next (takeRequest 0x4A tag false (alertClear body) s)

/-! ### Acknowledgements (R191 to R193) -/

/-- A table with every entry acknowledged. -/
def ackTable (t : Vector (Option AlertEntry) 11) : Vector (Option AlertEntry) 11 :=
  t.map fun e => e.map fun e => { e with acked := true }

/-- Set the acknowledged flag of every entry of a press. -/
def State.ackPress (s : State) (p : Fin 16) : State :=
  s.mapAu fun au => { au with tables := au.tables.set p (ackTable au.tables[p]) }

/-- The entries of some presses. -/
def State.entriesAt (s : State) (l : List (Fin 16)) : List AlertEntry :=
  l.flatMap fun p => tableEntries s.au.tables[p]

/-- The number of entries of some presses whose flag an acknowledgement changes. -/
def State.unacked (s : State) (l : List (Fin 16)) : Nat := ((s.entriesAt l).filter fun e => !e.acked).length

/-- The zone record after an acknowledgement (R191). -/
def Zone.acknowledged (now : Time) (src : AckSource) (z : Zone) : Zone :=
  { z with acks := satAdd 65535 z.acks 1, lastAck := some (now, src) }

/-- The detail of a ZONE notice (R193). -/
def zoneDetail (named : Option (Fin 16)) (changed acks : Nat) (pat : Pattern) : List Byte :=
  opt (fun p : Fin 16 => u8 p.val) named ++ u8 changed ++ u16 acks ++ u8 pat.code

/-- An acknowledgement in a zone of the entries of some presses (R191, R192): nothing when they hold none; otherwise their
flags, the pattern, the zone's count and last acknowledgement, and the ZONE notice. -/
def State.acknowledge (z : Fin 4) (l : List (Fin 16)) (named : Option (Fin 16)) (src : AckSource) (s : State) : State :=
  if (s.entriesAt l).isEmpty then s
  else
    let changed := s.unacked l
    let s := (l.foldl State.ackPress s).derivePattern z
    let s := s.mapZone z (Zone.acknowledged s.tb src)
    s.notice .zone src.code z.val (zoneDetail named changed s.zones[z].acks s.zones[z].pattern)

/-- The reply of ALERT_ACK: entries changed, and the pattern after (R192). -/
def ackAnswer (z : Fin 4) (l : List (Fin 16)) (named : Option (Fin 16)) (s : State) : Answer :=
  let s' := s.acknowledge z l named .host
  accept (u8 (s.unacked l) ++ u8 s'.zones[z].pattern.code) s'

/-- ALERT_ACK's answer (R192). -/
def alertAck (body : List Byte) (s : State) : Answer :=
  match body with
  | [sel, n] =>
    if sel = 0 then
      match toFin? 16 n.toNat with
      | some p => ackAnswer s.presses[p].profile.zone [p] (some p) s
      | none => refuse .value s
    else if sel = 1 then
      match toFin? 4 n.toNat with
      | some z => ackAnswer z (s.members z) none s
      | none => refuse .value s
    else refuse .value s
  | _ => refuse .length s

/-- ALERT_ACK_PRESS (R192). -/
def execAlertAckPress (tag : Byte) (body : List Byte) (s : State) : Host.Outcome State Fault Refusal :=
  .next (takeRequest 0x4B tag false (alertAck body) s)

/-- ALERT_ACK_ZONE (R191, R192). -/
def execAlertAckZone (tag : Byte) (body : List Byte) (s : State) : Host.Outcome State Fault Refusal :=
  .next (takeRequest 0x4B tag false (alertAck body) s)

/-! ### ZONE_QUERY (R194) -/

/-- The member presses as carried. -/
def State.membersBytes (s : State) (z : Fin 4) : List Byte := list8 (fun p : Fin 16 => u8 p.val) (s.members z)

/-- Unacknowledged LATCHED, unacknowledged RETRY and other entries of a zone (R194). -/
def State.zoneCounts (s : State) (z : Fin 4) : List Byte :=
  let l := s.zoneEntries z
  let a := (l.filter (AlertEntry.unackedIn .latched)).length
  let b := (l.filter (AlertEntry.unackedIn .retry)).length
  u8 a ++ u8 b ++ u8 (l.length - a - b)

/-- The members that hold an entry, each with its held flag (R194). -/
def State.holders (s : State) (z : Fin 4) : List Byte :=
  list8 (fun p : Fin 16 => u8 p.val ++ flag s.presses[p].held)
    ((s.members z).filter fun p => !(tableEntries s.au.tables[p]).isEmpty)

/-- A last acknowledgement as carried. -/
def lastAckBytes (x : Time × AckSource) : List Byte := timeBytes x.1 ++ u8 x.2.code

/-- ZONE_QUERY's reply for one zone (R194). -/
def State.zoneReport (s : State) (z : Fin 4) : List Byte :=
  u8 s.zones[z].pattern.code ++ opt (fun t : Time => timeBytes (s.tb - t)) s.zones[z].phase ++ s.membersBytes z ++
    s.zoneCounts z ++ s.holders z ++ u8 s.zones[z].button.code ++ u16 s.zones[z].acks ++
    opt lastAckBytes s.zones[z].lastAck

/-- The figures of one zone when none is named (R194). -/
def State.zoneSummary (s : State) (z : Fin 4) : List Byte :=
  u8 s.zones[z].pattern.code ++ s.membersBytes z ++ s.zoneCounts z ++ u8 s.zones[z].button.code

/-- ZONE_QUERY's answer (R194). -/
def zoneQuery (body : List Byte) (s : State) : Answer :=
  match optField 1 body with
  | .badLength => refuse .length s
  | .badPresence => refuse .value s
  | .absent => accept ((List.finRange 4).flatMap s.zoneSummary) s
  | .present f =>
    match toFin? 4 (byteAt f 0).toNat with
    | some z => accept (s.zoneReport z) s
    | none => refuse .value s

/-- ZONE_QUERY (R194). -/
def execZoneQuery (tag : Byte) (body : List Byte) (s : State) : Host.Outcome State Fault Refusal :=
  .next (takeRequest 0x4C tag false (zoneQuery body) s)

/-! ### Buttons (R190) -/

/-- The level of an acknowledge input. -/
def setAck (z : Fin 4) (active : Bool) (p : Pins) : Pins :=
  match z.val with
  | 0 => { p with ack0 := active }
  | 1 => { p with ack1 := active }
  | 2 => { p with ack2 := active }
  | _ => { p with ack3 := active }

/-- The button after a change of its input's level (R190). -/
def Zone.level (now : Time) (active : Bool) (z : Zone) : Zone :=
  match z.button, active with
  | .released, true => { z with button := .pressing, deadline := some (now + ms Config.debounceMs) }
  | .pressing, false => { z with button := .released, deadline := none }
  | .pressed, false => { z with button := .releasing, deadline := some (now + ms Config.debounceMs) }
  | .releasing, true => { z with button := .pressed, deadline := none }
  | _, _ => z

/-- ACK_INPUT_CHANGE (R190). -/
def execAckInputChange (z : Fin 4) (active : Bool) (s : State) : Host.Outcome State Fault Refusal :=
  .next ({ s with pins := setAck z active s.pins }.mapZone z (Zone.level s.tb active))

/-- Whether a zone's button deadline has been reached. -/
def State.buttonDue (s : State) (z : Fin 4) : Bool :=
  match s.zones[z].deadline with
  | some t => reached s.tb t
  | none => false

/-- The button at its deadline (R190): PRESSING becomes PRESSED and an acknowledgement is taken, RELEASING becomes
RELEASED. -/
def State.buttonAt (z : Fin 4) (s : State) : State :=
  match s.zones[z].button with
  | .pressing =>
    let s := s.mapZone z fun x => { x with button := .pressed, deadline := none }
    s.acknowledge z (s.members z) none .button
  | .releasing => s.mapZone z fun x => { x with button := .released, deadline := none }
  | _ => s

/-- BUTTON_DEADLINE (R190). -/
def execButtonDeadline (z : Fin 4) (s : State) : Host.Outcome State Fault Refusal :=
  .next (if s.buttonDue z then s.buttonAt z else s)

end Sys2Proof.Machine
end

