-- ==== Sys2Proof/Machine/FeedLink.lean ====
section
/-! DEFINITION. The frames from a press (chapters 4 and 5). -/

namespace Sys2Proof.Machine

/-! ### HELLO (R72, R74) -/

/-- The reported fields of a HELLO (R61, R210). Bits 2 to 7 of the capability byte stand for nothing and are ignored: log
entry 32 (DESIGN CHOICE). -/
def helloReport (model : Vector Byte 16) (serial : Vector Byte 12) (caps grades window : Byte) : Reported :=
  { model, serial, caps := { color := caps.getLsbD 0, duplex := caps.getLsbD 1, grades }, announced := window }

/-- Record a HELLO: reported fields, applied window (R73) and effective capabilities (R62). -/
def Press.report (r : Reported) (pr : Press) : Press :=
  { pr with
    reported := some r, applied := some (clampWindow r.announced.toNat),
    effective := some (pr.profile.caps.inter r.caps) }

/-- The link comes up (R72): the probe timer stopped, the last frame time set, ONLINE. -/
def Press.comeOnline (now : Time) (pr : Press) : Press :=
  { pr with probeDeadline := none, lastFrame := some now, link := .online }

/-- The applied window and effective capabilities, as PRESS notices carry them (R84). -/
def Press.appliedBytes (pr : Press) : List Byte := u8 pr.window

/-- The effective capabilities in a PRESS notice. -/
def Press.effectiveBytes (pr : Press) : List Byte :=
  match pr.effective with
  | some c => c.bytes
  | none => []

/-- A HELLO on an AWAITING press (R72): the link comes up, the PRESS notice, and a binding event. -/
def State.linkUp (p : Fin 16) (r : Reported) (s : State) : State :=
  let s := s.mapPress p fun pr => (pr.report r).comeOnline s.tb
  (s.notice .press 0 p.val (s.presses[p].appliedBytes ++ s.presses[p].effectiveBytes)).bindEvent p

/-- Whether a HELLO names another machine than the one recorded before (R74). -/
def Press.changedBy (r : Reported) (pr : Press) : Bool :=
  match pr.reported with
  | some o => decide (o.model ≠ r.model) || decide (o.serial ≠ r.serial)
  | none => true

/-- The detail of a RESTART notice (R84). -/
def restartDetail (lost : Nat) (changed : Bool) (pr : Press) : List Byte :=
  u8 lost ++ pr.appliedBytes ++ flag changed ++ pr.effectiveBytes

/-- A HELLO on an ONLINE press (R74): recorded, PRESS_RESTART raised, every entry lost, PAUSE on a press held before, the
notice, and one opportunity if the job is still bound; then the test for the end of QUIESCING (R111). -/
def State.restart (p : Fin 16) (r : Reported) (s : State) : State :=
  let changed := s.presses[p].changedBy r
  let held := s.presses[p].held
  let h := s.presses[p].bound
  let path := s.presses[p].path
  let s := s.mapPress p (Press.report r)
  let s := s.alert p .pressRestart (if changed then 1 else 0)
  let s := s.loseAll p path
  let s := if held then s.sendBetween p .pause else s
  let s := s.notice .press 1 p.val (restartDetail path.length changed s.presses[p])
  (s.opportunityIfStill p h).quiesceTest

/-- A sound HELLO, by the link state (R71). -/
def State.takeHello (p : Fin 16) (r : Reported) (s : State) : State :=
  match s.presses[p].link with
  | .disabled => s
  | .awaiting => s.linkUp p r
  | .online => (s.heard p).restart p r

/-- HELLO (R72, R74). -/
def execHello (p : Fin 16) (model : Vector Byte 16) (serial : Vector Byte 12) (caps grades window : Byte) (s : State) :
    Host.Outcome State Fault Refusal :=
  .next (s.takeHello p (helloReport model serial caps grades window))

/-! ### WINDOW (R73) -/

/-- Record an announced window and apply it (R73). -/
def Press.announce (w : Byte) (pr : Press) : Press :=
  { pr with
    reported := pr.reported.map fun r => { r with announced := w }, applied := some (clampWindow w.toNat) }

/-- The WINDOW notice, when the applied window has changed (R73, R84). -/
def State.windowNotice (p : Fin 16) (old new : Nat) (s : State) : State :=
  if old = new then s else s.notice .press 2 p.val (u8 old ++ u8 new)

/-- A WINDOW on an ONLINE press: a rise is a dispatch opportunity (R73); otherwise the feed condition follows (R96). -/
def State.takeWindow (p : Fin 16) (w : Byte) (s : State) : State :=
  let old := s.presses[p].window
  let new := clampWindow w.toNat
  let s := (s.mapPress p (Press.announce w)).windowNotice p old new
  if old < new then s.opportunity p else s.refresh p

/-- WINDOW (R73). -/
def execWindow (p : Fin 16) (w : Byte) (s : State) : Host.Outcome State Fault Refusal :=
  .next (s.onlineFrame p (State.takeWindow p w))

/-! ### TAKEN (R97) -/

/-- A path entry whose tag a TAKEN names (R97). -/
def PathEntry.take (now : Time) (e : PathEntry) : PathEntry :=
  match e.state with
  | .sent => { e with takenAt := some now, state := .taken }
  | .sending => { e with takenAt := some now }
  | .taken => e

/-- Whether a tag is in the path list (R75). -/
def Press.hasTag (tag : Half) (pr : Press) : Bool := pr.path.any fun e => decide (e.tag = tag)

/-- Change the entry of a tag. -/
def Press.mapEntry (tag : Half) (f : PathEntry → PathEntry) (pr : Press) : Press :=
  { pr with path := pr.path.map fun e => if e.tag = tag then f e else e }

/-- A TAKEN on an ONLINE press (R75, R97): the entry, the stall watch (R102), a dispatch opportunity. -/
def State.takeTaken (p : Fin 16) (tag : Half) (s : State) : State :=
  if s.presses[p].hasTag tag then
    (s.mapPress p fun pr => (pr.mapEntry tag (PathEntry.take s.tb)).rewatch).opportunity p
  else s.protocol p .unknownTag

/-- TAKEN (R75, R97). -/
def execTaken (p : Fin 16) (tag : Half) (s : State) : Host.Outcome State Fault Refusal :=
  .next (s.onlineFrame p (State.takeTaken p tag))

/-! ### DELIVERED (R98, R99) -/

/-- The entries before the one of a tag, and that entry. -/
def splitPath (tag : Half) : List PathEntry → List PathEntry → Option (List PathEntry × PathEntry)
  | _, [] => none
  | older, e :: l => if e.tag = tag then some (older, e) else splitPath tag (older ++ [e]) l

/-- The MISFEED of a skip (R99 step 1). -/
def State.misfeed (p : Fin 16) (n : Nat) (s : State) : State :=
  if n = 0 then s else s.alert p .misfeed (BitVec.ofNat 8 n)

/-- A delivery (R98), or a skip when older entries stand before it (R99); then the test for the end of QUIESCING
(R111). -/
def State.takeDelivered (p : Fin 16) (tag : Half) (s : State) : State :=
  match splitPath tag [] s.presses[p].path with
  | none => s.protocol p .unknownTag
  | some (older, e) =>
    let h := s.presses[p].bound
    (((((s.misfeed p older.length).loseAll p older).deliverEntry p e).opportunityIfStill p h)).quiesceTest

/-- DELIVERED (R75, R98, R99). -/
def execDelivered (p : Fin 16) (tag : Half) (s : State) : Host.Outcome State Fault Refusal :=
  .next (s.onlineFrame p (State.takeDelivered p tag))

/-! ### FAULT and CLEAR (R76, R77) -/

/-- The entries a FAULT names, in the order of its tags, a repeat left out (R70, R76). -/
def Press.named (tags : List Half) (pr : Press) : List PathEntry :=
  tags.eraseDups.filterMap fun t => pr.path.find? fun e => decide (e.tag = t)

/-- One PROTOCOL for a frame whose tags were not all in the path (R76). -/
def State.unknownTags (p : Fin 16) (missed : Bool) (s : State) : State :=
  if missed then s.protocol p .unknownTag else s

/-- The opportunity of a loss event: none where nothing was lost (R101). It comes before the reports of the releases (R139)
reach the other engines: log entry 39 (DESIGN CHOICE). -/
def State.afterLosses (p : Fin 16) (l : List PathEntry) (h : Option Handle) (s : State) : State :=
  if l.isEmpty then s else s.opportunityIfStill p h

/-- A FAULT on an ONLINE press (R76): the raise, then the losses in the frame's order, then the opportunity (R101) and
the test for the end of QUIESCING (R111). -/
def State.takeFault (p : Fin 16) (k : AlertKind) (detail : Byte) (tags : List Half) (s : State) : State :=
  let l := s.presses[p].named tags
  let missed := tags.any fun t => !s.presses[p].hasTag t
  let h := s.presses[p].bound
  (((((s.alert p k detail).loseAll p l).unknownTags p missed).afterLosses p l h)).quiesceTest

/-- FAULT (R76); one of more than 8 lost tags is malformed (R70). -/
def execFault (p : Fin 16) (k : FaultKind) (detail : Byte) (tags : List Half) (s : State) :
    Host.Outcome State Fault Refusal :=
  .next (s.onlineFrame p (if tags.length ≤ 8 then State.takeFault p k.alert detail tags else
    State.protocol p .badFrame))

/-- CLEAR (R77): the condition end of the kind, with the frame's detail. -/
def execClear (p : Fin 16) (k : FaultKind) (detail : Byte) (s : State) : Host.Outcome State Fault Refusal :=
  .next (s.onlineFrame p (State.conditionEnd p k.alert (some detail)))

/-- BEAT (R71): nothing beyond the first step of every frame. -/
def execBeat (p : Fin 16) (s : State) : Host.Outcome State Fault Refusal := .next (s.onlineFrame p id)

/-! ### Frames that are dropped (R70, R71) -/

/-- Count a bad check on a press. -/
def Press.badCheck (pr : Press) : Press := { pr with badChecks := satAdd 65535 pr.badChecks 1 }

/-- A frame that fails its check, by the link state (R70, R71). -/
def State.badCheck (p : Fin 16) (s : State) : State :=
  match s.presses[p].link with
  | .disabled => s
  | .awaiting => s.mapPress p Press.badCheck
  | .online => (s.mapPress p Press.badCheck).protocol p .badCheck

/-- FEED_BAD_CHECK (R70). -/
def execFeedBadCheck (p : Fin 16) (typ : Byte) (len : Half) (body : List Byte) (check : Half) (s : State) :
    Host.Outcome State Fault Refusal :=
  .next (if feedCheckFails typ len body check then s.badCheck p else s)

/-- FEED_BAD_FRAME (R70): a frame whose check passes but which is malformed; on an ONLINE press it counts as a frame
received. -/
def execFeedBadFrame (p : Fin 16) (typ : Byte) (body : List Byte) (s : State) : Host.Outcome State Fault Refusal :=
  .next (if (parseFeed typ body).isNone then s.onlineFrame p (State.protocol p .badFrame) else s)

end Sys2Proof.Machine
end

