-- ==== Sys2Proof/Machine/Timers.lean ====
section
/-! DEFINITION. Deadlines and the reports between blocks: probe, silence, stall, unbind and retry deadlines, the end of a
transmission, queue events and availability reports. A deadline event whose deadline is absent or not reached, and a
report that is not outstanding, pass without effect (log entry 8). -/

namespace Sys2Proof.Machine

/-- Whether a deadline is set and reached. -/
def State.due (s : State) (t : Option Time) : Bool :=
  match t with
  | some t => reached s.tb t
  | none => false

/-- Whether the probe timer of a press has expired (R67). -/
def State.probeDue (s : State) (p : Fin 16) : Bool :=
  decide (s.presses[p].link = .awaiting) && s.due s.presses[p].probeDeadline

/-- PROBE_TIMER_EXPIRY (R67): another PROBE, counted, and the timer started again. -/
def execProbeTimerExpiry (p : Fin 16) (s : State) : Host.Outcome State Fault Refusal :=
  .next (if s.probeDue p then s.probe p else s)

/-- Whether the silence deadline of a press is reached and its silence not yet active (R78). -/
def State.silenceDue (s : State) (p : Fin 16) : Bool :=
  decide (s.presses[p].link = .online) && s.due s.presses[p].silenceAt && !s.silent p

/-- SILENCE_DEADLINE (R78): LINK_SILENT raised with detail 0. -/
def execSilenceDeadline (p : Fin 16) (s : State) : Host.Outcome State Fault Refusal :=
  .next (if s.silenceDue p then s.alert p .linkSilent 0 else s)

/-- STALL_DEADLINE (R102): STALL raised for the watched entry. -/
def execStallDeadline (p : Fin 16) (s : State) : Host.Outcome State Fault Refusal :=
  .next (match s.stallDue p with
    | some tag => s.raiseStall p tag
    | none => s)

/-- The unbind timer started again with the full running unbind time (R105). -/
def Press.restartUnbind (now : Time) (pr : Press) : Press :=
  { pr with unbindDeadline := some (now + secs (pr.runUnbind.getD 0)) }

/-- The expiry of an unbind timer (R105): the job returned to its queue head when there is room, or the timer again. -/
def State.unbindExpiry (p : Fin 16) (s : State) : State :=
  match s.presses[p].bound.bind fun h => (s.jobOf h).map fun j => (h, j) with
  | some (h, j) =>
    if s.roomFor j then (s.returnJob h j).unbind p else s.mapPress p (Press.restartUnbind s.tb)
  | none => s

/-- UNBIND_DEADLINE (R105). -/
def execUnbindDeadline (p : Fin 16) (s : State) : Host.Outcome State Fault Refusal :=
  .next (if s.due s.presses[p].unbindDeadline then s.unbindExpiry p else s)

/-- Whether the retry deadline of an entry is reached (R176). -/
def State.retryDue (s : State) (p : Fin 16) (k : AlertKind) : Bool :=
  match s.entry p k with
  | some e => decide (e.state = .retryWait) && s.due e.deadline
  | none => false

/-- RETRY_DEADLINE (R176): the entry removed with reason EXPIRED. -/
def execRetryDeadline (p : Fin 16) (k : AlertKind) (s : State) : Host.Outcome State Fault Refusal :=
  .next (if s.retryDue p k then s.removeEntries p .expired [k] else s)

/-- The entry at the end of its transmission (R97). -/
def PathEntry.sentOut (e : PathEntry) : PathEntry :=
  if e.state = .sending then { e with state := if e.takenAt.isSome then .taken else .sent } else e

/-- The end of a transmission (R80, R97): the face data still to go, SHEET_END, the entry moved on, an opportunity. -/
def State.endTransmission (p : Fin 16) (t : Transmission) (s : State) : State :=
  let s := s.sendData p t (s.dataLeft t)
  let s := s.send p (.sheetEnd t.tag)
  (s.mapPress p fun pr => { pr.mapEntry t.tag PathEntry.sentOut with tx := none }).opportunity p

/-- TRANSMISSION_END (R80, R97). -/
def execTransmissionEnd (p : Fin 16) (s : State) : Host.Outcome State Fault Refusal :=
  .next (match s.presses[p].tx with
    | some t => s.endTransmission p t
    | none => s)

/-- The presses that a queue event of a class concerns: READY ones that serve it (R55, R88). -/
def State.servers (s : State) (c : Fin 8) : List (Fin 16) :=
  (List.finRange 16).filter fun p => s.presses[p].ready && decide (c ∈ s.presses[p].profile.classes)

/-- A queue event taken by the engines, in an order that the manual leaves open (R54, R55). -/
def State.takeQueueEvent (c : Fin 8) (s : State) : State :=
  let s := s.mapRu fun r => { r with reports := r.reports.erase c }
  let (l, s) := s.inAnyOrder (s.servers c)
  l.foldl (fun s p => s.bindEvent p) s

/-- QUEUE_EVENT (R55). -/
def execQueueEvent (c : Fin 8) (s : State) : Host.Outcome State Fault Refusal :=
  .next (if c ∈ s.ru.reports then s.takeQueueEvent c else s)

/-- AVAILABILITY_RISE_REPORT (R139): a dispatch opportunity on the press reported to. -/
def execAvailabilityRiseReport (p : Fin 16) (a : Fin 256) (s : State) : Host.Outcome State Fault Refusal :=
  .next (if (⟨p, a⟩ : Rise) ∈ s.mu.rises then
    (s.mapMu fun m => { m with rises := m.rises.erase ⟨p, a⟩ }).opportunity p else s)

end Sys2Proof.Machine
end

