-- ==== Sys2Proof/Machine/StoreEvents.lean ====
section
/-! DEFINITION. The meter store's own events (R153, R157, R162, R163). An event that finds no operation of its kind passes
without effect (log entry 8). -/

namespace Sys2Proof.Machine

/-- Fail for want of a sequence (R154): at once, or at the scan's end. -/
def State.wearOut (s : State) : State :=
  if s.scanning then s.mapStore (Store.scanFails .worn) else s.storeFails .worn

/-- Begin the write of a press into a place (R153 step 1), and come some way in it. -/
def State.beginWrite (p : Fin 16) (x : List (Fin 4 × Nat) × Fin 4 × Nat) (s : State) : State :=
  (s.mapStore (Store.beginWrite p s.mu.meters[p].live x)).advanceWrite

/-- STORE_WRITE_BEGIN (R153, R154). The fault is a write for which neither ACTIVE nor SPARE has a free slot (log entry 23). -/
def execStoreWriteBegin (s : State) : Host.Outcome State Fault Refusal :=
  if s.store.writeDue then
    if s.store.worn then .next s.wearOut
    else match s.store.chosen, s.store.place with
      | some p, some x => .next (s.beginWrite p x)
      | some _, none => .fault .noFreeSlot
      | none, _ => .next s
  else .next s

/-- The store state at the end of an operation that leaves it free: IDLE, or SCANNING while the scan runs. -/
def Store.toIdle (st : Store) : Store := { st with state := if st.state = .scanning then .scanning else .idle }

/-- A write's completion (R153, R155, R159): the slots programmed, the newest record, the fill step, and SAVE_DONE. -/
def State.completeWrite (w : WriteOp) (s : State) : State :=
  (s.mapStore fun st => ((st.finishWrite w).toIdle).fillStep w.moves).saveDone w.sequence

/-- STORE_WRITE_COMPLETE (R153). -/
def execStoreWriteComplete (s : State) : Host.Outcome State Fault Refusal :=
  .next (match s.store.op with
    | some (.write w) => s.completeWrite w
    | _ => s)

/-- STORE_ERASE_BEGIN (R156, R157): the first attempt on the victim. -/
def execStoreEraseBegin (s : State) : Host.Outcome State Fault Refusal :=
  .next (match s.store.victim with
    | some k => if s.store.eraseDue then s.mapStore (Store.beginErase k 1) else s
    | none => s)

/-- The end of an erase and its verify (R157). -/
def State.endErase (k : Fin 4) (residue : List (Nat × Byte)) (s : State) : State :=
  let s := s.mapStore (Store.erase k residue)
  if s.store.erasedAt k then s.mapStore (Store.eraseVerified k) else s.eraseFailed k

/-- STORE_ERASE_END (R157). -/
def execStoreEraseEnd (residue : List (Nat × Byte)) (s : State) : Host.Outcome State Fault Refusal :=
  .next (match s.store.op with
    | some (.erase k) => s.endErase k residue
    | _ => s)

/-- The live meters loaded from the newest records (R162). -/
def State.loadMeters (s : State) : State :=
  s.mapMu fun m => { m with meters := Vector.ofFn fun p => { m.meters[p] with live := s.store.loaded p } }

/-- The end of the scan's reading (R162, R163): classified, the live meters loaded, and the ring's repair begun. -/
def State.readDone (s : State) : State :=
  let s := (s.mapStore Store.classify).loadMeters
  s.mapStore fun st => st.clearNext st.toClear

/-- SCAN_READ_DONE (R162). -/
def execScanReadDone (s : State) : Host.Outcome State Fault Refusal :=
  .next (if s.store.scan = some .reading then s.readDone else s)

/-- The end of the start-up scan (R163, R161, R208): the store's state, its notices, and the MODE notice. -/
def State.endScan (s : State) : State :=
  let s := s.storeSettles.scannedNotice
  s.notice .mode 1 0 (u8 s.store.cause.code ++ u8 s.store.state.code)

/-- SCAN_END (R163). -/
def execScanEnd (s : State) : Host.Outcome State Fault Refusal :=
  .next (if s.store.scan = some .ending then s.endScan else s)

end Sys2Proof.Machine
end

