-- ==== Sys2Proof/Machine/Dispatch.lean ====
section
/-! DEFINITION. One arm per command: the meaning it has. -/

namespace Sys2Proof.Machine

def exec (i : Instr) (s : State) : Host.Outcome State Fault Refusal :=
  match i with
  | .powerOnReset pins => Sys2Proof.Machine.execPowerOnReset pins s
  | .rstPinReset pins => Sys2Proof.Machine.execRstPinReset pins s
  | .resetHard tag body pins => Sys2Proof.Machine.execResetHard tag body pins s
  | .resetSoft tag body => Sys2Proof.Machine.execResetSoft tag body s
  | .identify tag body => Sys2Proof.Machine.execIdentify tag body s
  | .status tag body => Sys2Proof.Machine.execStatus tag body s
  | .modeSetRun tag body => Sys2Proof.Machine.execModeSetRun tag body s
  | .modeSetQuiesce tag body => Sys2Proof.Machine.execModeSetQuiesce tag body s
  | .fetchNotices tag body => Sys2Proof.Machine.execFetchNotices tag body s
  | .attnMask tag body => Sys2Proof.Machine.execAttnMask tag body s
  | .attnClear tag body => Sys2Proof.Machine.execAttnClear tag body s
  | .jobOpen tag body => Sys2Proof.Machine.execJobOpen tag body s
  | .sheetBegin tag body => Sys2Proof.Machine.execSheetBegin tag body s
  | .faceData tag body => Sys2Proof.Machine.execFaceData tag body s
  | .jobClose tag body => Sys2Proof.Machine.execJobClose tag body s
  | .jobCancel tag body => Sys2Proof.Machine.execJobCancel tag body s
  | .jobQuery tag body => Sys2Proof.Machine.execJobQuery tag body s
  | .jobList tag body => Sys2Proof.Machine.execJobList tag body s
  | .jobRelease tag body => Sys2Proof.Machine.execJobRelease tag body s
  | .jobRequeue tag body => Sys2Proof.Machine.execJobRequeue tag body s
  | .filterSet tag body => Sys2Proof.Machine.execFilterSet tag body s
  | .filterEnable tag body => Sys2Proof.Machine.execFilterEnable tag body s
  | .filterQuery tag body => Sys2Proof.Machine.execFilterQuery tag body s
  | .classSet tag body => Sys2Proof.Machine.execClassSet tag body s
  | .classQuery tag body => Sys2Proof.Machine.execClassQuery tag body s
  | .pressSet tag body => Sys2Proof.Machine.execPressSet tag body s
  | .pressEnable tag body => Sys2Proof.Machine.execPressEnable tag body s
  | .pressDisable tag body => Sys2Proof.Machine.execPressDisable tag body s
  | .pressQuery tag body => Sys2Proof.Machine.execPressQuery tag body s
  | .pressWriteoff tag body => Sys2Proof.Machine.execPressWriteoff tag body s
  | .planSet tag body => Sys2Proof.Machine.execPlanSet tag body s
  | .planQuery tag body => Sys2Proof.Machine.execPlanQuery tag body s
  | .accountOpen tag body => Sys2Proof.Machine.execAccountOpen tag body s
  | .accountSet tag body => Sys2Proof.Machine.execAccountSet tag body s
  | .accountAdjust tag body => Sys2Proof.Machine.execAccountAdjust tag body s
  | .accountQuery tag body => Sys2Proof.Machine.execAccountQuery tag body s
  | .accountPeriod tag body => Sys2Proof.Machine.execAccountPeriod tag body s
  | .accountClose tag body => Sys2Proof.Machine.execAccountClose tag body s
  | .chargeQuote tag body => Sys2Proof.Machine.execChargeQuote tag body s
  | .meterRead tag body => Sys2Proof.Machine.execMeterRead tag body s
  | .meterSave tag body => Sys2Proof.Machine.execMeterSave tag body s
  | .storeQuery tag body => Sys2Proof.Machine.execStoreQuery tag body s
  | .alertModeSet tag body => Sys2Proof.Machine.execAlertModeSet tag body s
  | .alertList tag body => Sys2Proof.Machine.execAlertList tag body s
  | .alertClear tag body => Sys2Proof.Machine.execAlertClear tag body s
  | .alertAckPress tag body => Sys2Proof.Machine.execAlertAckPress tag body s
  | .alertAckZone tag body => Sys2Proof.Machine.execAlertAckZone tag body s
  | .zoneQuery tag body => Sys2Proof.Machine.execZoneQuery tag body s
  | .unknownRequest typ tag body => Sys2Proof.Machine.execUnknownRequest typ tag body s
  | .requestDropped typ tag body => Sys2Proof.Machine.execRequestDropped typ tag body s
  | .frameBadLength len => Sys2Proof.Machine.execFrameBadLength len s
  | .frameBadCheck typ tag body check => Sys2Proof.Machine.execFrameBadCheck typ tag body check s
  | .csDeasserted mosi => Sys2Proof.Machine.execCsDeasserted mosi s
  | .replyClockedOut => Sys2Proof.Machine.execReplyClockedOut s
  | .hello press model serial caps grades win => Sys2Proof.Machine.execHello press model serial caps grades win s
  | .window press win => Sys2Proof.Machine.execWindow press win s
  | .taken press tag => Sys2Proof.Machine.execTaken press tag s
  | .delivered press tag => Sys2Proof.Machine.execDelivered press tag s
  | .fault press kind detail tags => Sys2Proof.Machine.execFault press kind detail tags s
  | .clear press kind detail => Sys2Proof.Machine.execClear press kind detail s
  | .beat press => Sys2Proof.Machine.execBeat press s
  | .feedBadCheck press typ len body check => Sys2Proof.Machine.execFeedBadCheck press typ len body check s
  | .feedBadFrame press typ body => Sys2Proof.Machine.execFeedBadFrame press typ body s
  | .probeTimerExpiry press => Sys2Proof.Machine.execProbeTimerExpiry press s
  | .silenceDeadline press => Sys2Proof.Machine.execSilenceDeadline press s
  | .stallDeadline press => Sys2Proof.Machine.execStallDeadline press s
  | .unbindDeadline press => Sys2Proof.Machine.execUnbindDeadline press s
  | .retryDeadline press kind => Sys2Proof.Machine.execRetryDeadline press kind s
  | .transmissionEnd press => Sys2Proof.Machine.execTransmissionEnd press s
  | .queueEvent cls => Sys2Proof.Machine.execQueueEvent cls s
  | .availabilityRiseReport press account => Sys2Proof.Machine.execAvailabilityRiseReport press account s
  | .ackInputChange zone active => Sys2Proof.Machine.execAckInputChange zone active s
  | .buttonDeadline zone => Sys2Proof.Machine.execButtonDeadline zone s
  | .storeWriteBegin => Sys2Proof.Machine.execStoreWriteBegin s
  | .storeWriteComplete => Sys2Proof.Machine.execStoreWriteComplete s
  | .storeEraseBegin => Sys2Proof.Machine.execStoreEraseBegin s
  | .storeEraseEnd residue => Sys2Proof.Machine.execStoreEraseEnd residue s
  | .scanReadDone => Sys2Proof.Machine.execScanReadDone s
  | .scanEnd => Sys2Proof.Machine.execScanEnd s

end Sys2Proof.Machine
end

