-- ==== Sys2Proof/Machine/Tick.lean ====
section
/-! DEFINITION. One millisecond of the time base with no command waiting, and the events that are due after it (log entry
1, DESIGN CHOICE). -/

namespace Sys2Proof.Machine

/-- A command when its condition holds. -/
def dueIf (b : Bool) (c : Instr) : List Instr := if b then [c] else []

/-- The deadline events of one press that are due (R67, R78, R102, R105, R176). -/
def State.dueAt (s : State) (p : Fin 16) : List Instr :=
  dueIf (s.probeDue p) (.probeTimerExpiry p) ++ dueIf (s.silenceDue p) (.silenceDeadline p) ++
    dueIf (s.stallDue p).isSome (.stallDeadline p) ++ dueIf (s.due s.presses[p].unbindDeadline) (.unbindDeadline p) ++
    AlertKind.all.flatMap fun k => dueIf (s.retryDue p k) (.retryDeadline p k)

/-- Every event that the state itself brings about: deadlines reached, reports outstanding (R55, R139), the meter store's
next operation (R152), and the end of a scan whose work is done (R163). What the flash, a link or the floor brings about is
not among them. -/
def State.dueCommands (s : State) : List Instr :=
  (List.finRange 16).flatMap s.dueAt ++ s.ru.reports.map Instr.queueEvent ++
    (s.mu.rises.map fun r => Instr.availabilityRiseReport r.press r.account) ++
    ((List.finRange 4).flatMap fun z => dueIf (s.buttonDue z) (.buttonDeadline z)) ++
    dueIf s.store.writeDue .storeWriteBegin ++ dueIf s.store.eraseDue .storeEraseBegin ++
    dueIf (decide (s.store.scan = some .ending)) .scanEnd

/-- A millisecond passes: the TB count rises by 1, a write in progress comes some way on, and the events then due join the
empty queue in an order that the manual leaves open. -/
def State.tick (s : State) : State :=
  let s := State.advanceWrite { s with tb := s.tb + 1 }
  let (l, c) := shuffle s.dueCommands.length s.dueCommands s.choices
  { s with pending := l, choices := c }

end Sys2Proof.Machine
end

