-- ==== Sys2Proof/Safety.lean ====
section
/-! DEFINITION. What counts as a safe state, in the terms the claims use: when a request is taken, which command is a
request, and the laws that the manual states of the whole part. -/

namespace Sys2Proof.Machine

/-! ### Requests -/

/-- A request is taken and handled by its owner (R197): fewer than 8 replies wait and the start-up scan has ended. -/
def State.takes (s : State) : Bool := decide (s.mlc.replies.length < Config.replyCapacity) && !s.scanning

/-- The type code and tag of a request command (R210); none for the other commands. -/
def requestOf : Instr → Option (Byte × Byte)
  | .resetHard tag _ _ => some (0x03, tag)
  | .resetSoft tag _ => some (0x03, tag)
  | .identify tag _ => some (0x01, tag)
  | .status tag _ => some (0x02, tag)
  | .modeSetRun tag _ => some (0x04, tag)
  | .modeSetQuiesce tag _ => some (0x04, tag)
  | .fetchNotices tag _ => some (0x05, tag)
  | .attnMask tag _ => some (0x06, tag)
  | .attnClear tag _ => some (0x07, tag)
  | .jobOpen tag _ => some (0x10, tag)
  | .sheetBegin tag _ => some (0x11, tag)
  | .faceData tag _ => some (0x12, tag)
  | .jobClose tag _ => some (0x13, tag)
  | .jobCancel tag _ => some (0x14, tag)
  | .jobQuery tag _ => some (0x15, tag)
  | .jobList tag _ => some (0x16, tag)
  | .jobRelease tag _ => some (0x17, tag)
  | .jobRequeue tag _ => some (0x18, tag)
  | .filterSet tag _ => some (0x20, tag)
  | .filterEnable tag _ => some (0x21, tag)
  | .filterQuery tag _ => some (0x22, tag)
  | .classSet tag _ => some (0x23, tag)
  | .classQuery tag _ => some (0x24, tag)
  | .pressSet tag _ => some (0x28, tag)
  | .pressEnable tag _ => some (0x29, tag)
  | .pressDisable tag _ => some (0x2A, tag)
  | .pressQuery tag _ => some (0x2B, tag)
  | .pressWriteoff tag _ => some (0x2C, tag)
  | .planSet tag _ => some (0x30, tag)
  | .planQuery tag _ => some (0x31, tag)
  | .accountOpen tag _ => some (0x32, tag)
  | .accountSet tag _ => some (0x33, tag)
  | .accountAdjust tag _ => some (0x34, tag)
  | .accountQuery tag _ => some (0x35, tag)
  | .accountPeriod tag _ => some (0x36, tag)
  | .accountClose tag _ => some (0x37, tag)
  | .chargeQuote tag _ => some (0x38, tag)
  | .meterRead tag _ => some (0x39, tag)
  | .meterSave tag _ => some (0x40, tag)
  | .storeQuery tag _ => some (0x41, tag)
  | .alertModeSet tag _ => some (0x48, tag)
  | .alertList tag _ => some (0x49, tag)
  | .alertClear tag _ => some (0x4A, tag)
  | .alertAckPress tag _ => some (0x4B, tag)
  | .alertAckZone tag _ => some (0x4B, tag)
  | .zoneQuery tag _ => some (0x4C, tag)
  | .unknownRequest typ tag _ => if namesRequest typ then none else some (typ, tag)
  | _ => none

/-- A request that the start-up scan does not allow (R203): one that names a type, other than IDENTIFY and STATUS. -/
def refusedInScan (c : Instr) : Bool :=
  match requestOf c with
  | some (typ, _) => namesRequest typ && decide (typ ≠ 0x01) && decide (typ ≠ 0x02)
  | none => false

/-- A command that is a hardware reset, or may be one (R208). -/
def mayReset : Instr → Bool
  | .powerOnReset _ => true
  | .rstPinReset _ => true
  | .resetHard .. => true
  | _ => false

/-- A reply as queued for a request, with the summary taken from `s` (R198, R199). -/
def replyFor (s : State) (typ tag : Byte) (st : Status) (body : List Byte) : Reply :=
  { typ := typ + 0x80, tag, body := st.code :: (s.summary ++ body) }

/-! ### The message link -/

/-- ATTN# is asserted exactly when some pending flag and its mask bit are both set (R201), the notice queue holds at most
48 notices (R200) and the reply queue at most 8 replies (R198). -/
def State.linkSound (s : State) : Prop :=
  s.mlc.attn = attnOf s.mlc.pendingFlags s.mlc.mask ∧ s.mlc.notices.length ≤ Config.noticeCapacity ∧
    s.mlc.replies.length ≤ Config.replyCapacity

/-! ### Memories and spool -/

/-- Both memories are in their canonical form. -/
def State.memoriesSound (s : State) : Prop :=
  Memory.wf Config.unwrittenByte s.smm.mem = true ∧ Memory.wf Config.erasedByte s.store.flash = true

/-- All chains of the spool, one after another. -/
def Smm.chained (m : Smm) : List Nat := m.slots.toList.flatMap SlotSpool.chain

/-- Every spool extent is either in the free list or in exactly one job's chain, never both (R25). -/
def State.extentsSound (s : State) : Prop :=
  (s.smm.free ++ s.smm.chained).Perm (List.range s.smm.size.extents)

/-! ### Meters -/

/-- Every live counter of every press is within its range (R145). -/
def State.metersBounded (s : State) : Prop := ∀ p : Fin 16, s.mu.meters[p].live.inRange = true

/-- No counter of `a` is above that of `b`. -/
def Counters.le (a b : Counters) : Prop :=
  a.mono ≤ b.mono ∧ a.color ≤ b.color ∧ a.delivered ≤ b.delivered ∧ a.spoiled ≤ b.spoiled

/-! ### Paths and money -/

/-- The charges of the path entries, on all presses, that bill to an account. -/
def State.chargesOf (s : State) (a : Fin 256) : Int := ((s.entriesOf a).map fun e => (e.charge : Int)).sum

/-- Every path holds at most 8 entries with distinct tags, and every applied window is at most 8 (R73, R87, R91). -/
def State.pathsSound (s : State) : Prop :=
  ∀ p : Fin 16, s.presses[p].path.length ≤ 8 ∧ s.presses[p].window ≤ 8 ∧ (s.presses[p].path.map PathEntry.tag).Nodup

/-- For every account, H equals the sum of the charges of all path entries, on all presses, that bill to it (R129), and an
ABSENT account holds nothing (R128). -/
def State.heldSound (s : State) : Prop :=
  s.pathsSound ∧ ∀ a : Fin 256,
    s.mu.accounts[a].held = s.chargesOf a ∧
    (s.mu.accounts[a].state = .absent → s.mu.accounts[a].held = 0)

/-- The availability of every account that is not ABSENT is never below 0 (R129). -/
def State.creditSound (s : State) : Prop :=
  s.heldSound ∧ ∀ a : Fin 256, s.mu.accounts[a].state ≠ .absent → 0 ≤ s.mu.accounts[a].availability

/-! ### What a loss does to its job (R7, R10, R14, R33) -/

/-- A pair at its place in the reprint list: behind those of lower copies, and of its own copy behind those of lower or
the same sheets (R7). -/
def pairPlaced (x : CopySheet) (l : List CopySheet) : List CopySheet :=
  let below : CopySheet → Bool := fun y => decide (y.copy < x.copy ∨ (y.copy = x.copy ∧ y.sheet ≤ x.sheet))
  l.takeWhile below ++ x :: l.dropWhile below

/-- A job after the loss of one of its sheets (R10): one more lost sheet; in ACTIVE the pair joins the reprint list, or
the job fails by its jam policy. -/
def Job.afterLoss (j : Job) (x : CopySheet) : Job :=
  let counted : Job := { j with lost := min 4294967295 (j.lost + 1) }
  match j.state, j.jam with
  | .active, .reprint => { counted with reprint := pairPlaced x j.reprint }
  | .active, .fail => { counted with
      state := .ending, cursor := .allDispatched, reprint := [], closed := true, openSheet := none
      coming := some { reason := .failed, failedSheet := some x } }
  | _, _ => counted

/-- The spool after the open sheet of a slot's job, if it has one, is abandoned (R33): the write position back where the
sheet began, and its record gone. -/
def Smm.withoutSheet (m : Smm) (i : Fin 64) (o : Option Nat) : Smm :=
  match o with
  | none => m
  | some n =>
    match m.slots[i].sheets[n - 1]? with
    | none => m
    | some r => { m with
        slots := m.slots.set i { m.slots[i] with
          wpos := match r.start with
            | some st => ⟨m.positionOf st.extent, st.offset⟩
            | none => m.slots[i].wpos
          sheets := m.slots[i].sheets.take (n - 1) } }

/-- `r` is `k`, or `k` with the one sheet taken that the opportunity of the event dispatches: the head of the reprint list
where that is not empty, or the sheet at the cursor (R94, R95, R101). -/
def Job.orDispatched (k r : Job) : Prop :=
  r = k ∨ (k.state = .active ∧ r = { k with reprint := k.reprint.tail, cursor := r.cursor } ∧
    (k.reprint ≠ [] → r.cursor = k.cursor))

/-- `u` is `s` with the job of a handle, which was `k` in ENDING, in the final state that its reason names (R14, R16): its
counts kept, its press absent, its end record written and its chain at the tail of the free list. -/
def State.jobEnded (s u : State) (h : Handle) (k : Job) : Prop :=
  ∀ c : Coming, k.coming = some c → ∃ (r : Job) (e : EndRecord),
    u.jobs[h.slot] = { gen := h.gen, job := some r } ∧ r.state = c.reason.state ∧ r.delivered = k.delivered ∧
    r.lost = k.lost ∧ r.cursor = k.cursor ∧ r.reprint = k.reprint ∧ r.closed = k.closed ∧
    r.openSheet = k.openSheet ∧ r.press = none ∧ r.endedAt = some s.tb ∧ r.endRecord = some e ∧
    e.reason = c.reason ∧ e.failedSheet = c.failedSheet ∧
    u.smm.free = s.smm.free ++ s.smm.slots[h.slot].chain ∧
    u.smm.slots[h.slot] = { chain := [], wpos := ⟨0, 0⟩, sheets := [] }

/-- No class queue holds the job of a handle. -/
def State.inNoQueue (s : State) (h : Handle) : Prop := ∀ c : Fin 8, ∀ e ∈ s.ru.queues[c].entries, e.handle ≠ h

/-- `u` is `s` after an event that leaves the job of a handle as `k`, or ends it where `ends` says so: an open sheet is
abandoned where the event has failed the job (R33). Where `quiet` says that the press dispatches and binds nothing more in the
event, no other job changes; elsewhere the opportunity of the event may dispatch a sheet of it. A job that ends stands in no
queue. -/
def State.jobTells (s u : State) (h : Handle) (j k : Job) (ends quiet : Prop) : Prop :=
  (¬ ends →
    (∃ r, u.jobs[h.slot] = { gen := h.gen, job := some r } ∧ k.orDispatched r) ∧
    (quiet → u.jobs = s.jobs.set h.slot { gen := h.gen, job := some k }) ∧
    u.smm = if j.state = k.state then s.smm else s.smm.withoutSheet h.slot j.openSheet) ∧
  (ends → quiet ∨ s.inNoQueue h →
    s.jobEnded u h k ∧ (quiet → ∀ i : Fin 64, i ≠ h.slot → u.jobs[i] = s.jobs[i]))

/-- `u` is `s` after the losses of pairs of a job `j` in ACTIVE or ENDING, one after another (R10, R101), which end a job that
they leave in ENDING with its path emptied (R14). -/
def State.lossesTell (s u : State) (h : Handle) (j : Job) (lost : List CopySheet) (emptied quiet : Prop) : Prop :=
  let k := lost.foldl Job.afterLoss j
  s.jobTells u h j k (k.state = .ending ∧ emptied) quiet

/-- `u` is `s` in QUIESCING after an event that leaves `left` in the path of press `p` (R111, R204): with every path empty
the part is in SETUP, every press marked pending, and the QUIESCED notice is the last thing queued; with any entry left it
stays in QUIESCING. -/
def State.drainTells (s u : State) (p : Fin 16) (left : List PathEntry) : Prop :=
  s.mlc.mode = .quiescing →
    (left = [] → (∀ q : Fin 16, q ≠ p → s.presses[q].path = []) → ∃ v : State,
      u = State.notice .mode 0 0 [] v ∧ v.tb = s.tb ∧ v.mlc.mode = .setup ∧
        ∀ q : Fin 16, v.store.marks[q].pending = true) ∧
    ((left ≠ [] ∨ ∃ q : Fin 16, q ≠ p ∧ s.presses[q].path ≠ []) → u.mlc.mode = .quiescing)

/-! ### Holds and zones -/

/-- A press is held exactly when its alert table contains an entry with mode LATCHED or RETRY (R170). -/
def State.holdsSound (s : State) : Prop := ∀ p : Fin 16, s.presses[p].held = tableHolds s.au.tables[p]

/-- A DISABLED press has an empty alert table (R183) and no stall watch, and the pattern of every zone is the one its
members' entries give (R187). -/
def State.zonesSound (s : State) : Prop :=
  (∀ p : Fin 16, s.presses[p].link = .disabled → s.au.tables[p] = emptyTable ∧ s.presses[p].watch = none) ∧
    ∀ z : Fin 4, s.zones[z].pattern = patternOf (s.zoneEntries z)

/-- The entry of a kind after a raise with a detail (R171 to R173): none is created under IGNORE; a new one takes the
table's mode and retry delay, an old one counts the occurrence; a momentary kind has its condition end at once. -/
def State.raisedEntry (s : State) (p : Fin 16) (k : AlertKind) (detail : Byte) : Option AlertEntry :=
  let row := s.au.modes[k.code]
  let raised : AlertEntry := match s.entry p k with
    | none => { mode := row.mode, retry := row.retry, state := .active, detail, raisedAt := s.tb, occurrences := 1,
                deadline := none, acked := false }
    | some e => { e with
        occurrences := min 255 (e.occurrences + 1), detail, state := .active, deadline := none, acked := false }
  if row.mode = .ignore then s.entry p k
  else if k = .misfeed ∨ k = .protocol ∨ k = .pressRestart then
    some (if raised.mode = .retry then
        { raised with state := .retryWait, deadline := some (s.tb + secs raised.retry) }
      else { raised with state := .clearWait })
  else some raised

/-- The entry of a kind after its condition has ended with a detail, when it carries one (R174). -/
def State.endedEntry (s : State) (p : Fin 16) (k : AlertKind) (detail : Option Byte) : Option AlertEntry :=
  (s.entry p k).map fun e =>
    let e := { e with detail := detail.getD e.detail }
    if e.state ≠ .active then e
    else if e.mode = .retry then { e with state := .retryWait, deadline := some (s.tb + secs e.retry) }
    else { e with state := .clearWait }

end Sys2Proof.Machine
end

