-- ==== Sys2Proof/WellFormed.lean ====
section
/-! DEFINITION. Which commands can occur: a body fits the link (R196), a row that names a selector carries it, a frame
event carries a frame of its kind. A command that is not well-formed stands for no event of the part. -/

namespace Sys2Proof

open Sys2Proof.Machine

/-- A request body fits the message frame (R196: 0 to 2,048 bytes). -/
def bodyFits (body : List Byte) : Bool := decide (body.length ≤ Config.maxBody)

/-- Whether the selector byte that a table row names does not belong to the other row of the same request. -/
def selectorNot (other : Byte) (body : List Byte) : Bool :=
  match body with
  | [b] => decide (b ≠ other)
  | _ => true

/-- Whether an ALERT_ACK body does not carry the other row's selector. -/
def ackSelectorNot (other : Byte) (body : List Byte) : Bool :=
  match body with
  | [b, _] => decide (b ≠ other)
  | _ => true

/-- The well-formed commands. -/
def Instr.wf : Instr → Bool
  | .powerOnReset _ => true
  | .rstPinReset _ => true
  | .resetHard _ body _ => bodyFits body && selectorNot 1 body
  | .resetSoft _ body => bodyFits body && selectorNot 0 body
  | .identify _ body => bodyFits body
  | .status _ body => bodyFits body
  | .modeSetRun _ body => bodyFits body && selectorNot 1 body
  | .modeSetQuiesce _ body => bodyFits body && selectorNot 0 body
  | .fetchNotices _ body => bodyFits body
  | .attnMask _ body => bodyFits body
  | .attnClear _ body => bodyFits body
  | .jobOpen _ body => bodyFits body
  | .sheetBegin _ body => bodyFits body
  | .faceData _ body => bodyFits body
  | .jobClose _ body => bodyFits body
  | .jobCancel _ body => bodyFits body
  | .jobQuery _ body => bodyFits body
  | .jobList _ body => bodyFits body
  | .jobRelease _ body => bodyFits body
  | .jobRequeue _ body => bodyFits body
  | .filterSet _ body => bodyFits body
  | .filterEnable _ body => bodyFits body
  | .filterQuery _ body => bodyFits body
  | .classSet _ body => bodyFits body
  | .classQuery _ body => bodyFits body
  | .pressSet _ body => bodyFits body
  | .pressEnable _ body => bodyFits body
  | .pressDisable _ body => bodyFits body
  | .pressQuery _ body => bodyFits body
  | .pressWriteoff _ body => bodyFits body
  | .planSet _ body => bodyFits body
  | .planQuery _ body => bodyFits body
  | .accountOpen _ body => bodyFits body
  | .accountSet _ body => bodyFits body
  | .accountAdjust _ body => bodyFits body
  | .accountQuery _ body => bodyFits body
  | .accountPeriod _ body => bodyFits body
  | .accountClose _ body => bodyFits body
  | .chargeQuote _ body => bodyFits body
  | .meterRead _ body => bodyFits body
  | .meterSave _ body => bodyFits body
  | .storeQuery _ body => bodyFits body
  | .alertModeSet _ body => bodyFits body
  | .alertList _ body => bodyFits body
  | .alertClear _ body => bodyFits body
  | .alertAckPress _ body => bodyFits body && ackSelectorNot 1 body
  | .alertAckZone _ body => bodyFits body && ackSelectorNot 0 body
  | .zoneQuery _ body => bodyFits body
  | .unknownRequest typ _ body => bodyFits body && !namesRequest typ
  | .requestDropped _ _ body => bodyFits body
  | .frameBadLength len => decide (Config.maxBody < len.toNat)
  | .frameBadCheck typ tag body check =>
    bodyFits body && decide (crc16 (messageChecked typ tag body) ≠ check)
  | .csDeasserted mosi => decide ((RxState.hunt.feedAll mosi).2 = [])
  | .replyClockedOut => true
  | .hello .. => true
  | .window .. => true
  | .taken .. => true
  | .delivered .. => true
  | .fault _ _ _ tags => decide (tags.length ≤ 8)
  | .clear .. => true
  | .beat _ => true
  | .feedBadCheck _ typ len body check => feedCheckFails typ len body check
  | .feedBadFrame _ typ body => decide (body.length ≤ Config.maxFeedBody) && (parseFeed typ body).isNone
  | .probeTimerExpiry _ => true
  | .silenceDeadline _ => true
  | .stallDeadline _ => true
  | .unbindDeadline _ => true
  | .retryDeadline .. => true
  | .transmissionEnd _ => true
  | .queueEvent _ => true
  | .availabilityRiseReport .. => true
  | .ackInputChange .. => true
  | .buttonDeadline _ => true
  | .storeWriteBegin => true
  | .storeWriteComplete => true
  | .storeEraseBegin => true
  | .storeEraseEnd residue => residue.all fun c => decide (c.1 < Config.sectorBytes)
  | .scanReadDone => true
  | .scanEnd => true

end Sys2Proof
end

