-- ==== Sys2Proof/Certificates/Slice0/Obligations.lean ====
section
/-! DEFINITION. The statements for the provers: what the manual's rules say of the part as a whole and of each command. -/

open Sys2Proof Sys2Proof.Machine

/-! ### The part as a whole -/

/-- A step with a command at the front of the queue is that command's effect with the rest still waiting. For every
command c, every rest of the queue and every state, step with c at the front is exec c with the rest in the queue. The
queue is the model's own (log entry 1). With nothing waiting a step is a millisecond: the time base rises by 1, a write in
progress may void some more of the slots on its way (log entry 13), nothing else changes, and the commands of the events
then due are the queue, each as often as it is due, in some order (log entries 1 and 5). The slots voided are the next n: their
bytes become 0x00 and no other byte of the flash changes, each counts as void and no longer as free, the write slot stands
behind the last of them, and SPARE becomes ACTIVE when the last slot of ACTIVE is among them. All of this but the rise of the
time base is the model's choice. -/
def Obligations.StepRunsFrontCommand : Prop :=
  (∀ (c : Instr) (rest : List Instr) (s : State),
    step { s with pending := c :: rest } = exec c { s with pending := rest }) ∧
  ∀ s : State, s.pending = [] → ∃ u, step s = .next u ∧ u.tb = s.tb + 1 ∧
    u = { s with tb := s.tb + 1, pending := u.pending, choices := u.choices, store := u.store } ∧
    ((∀ w, s.store.op ≠ some (.write w)) → u.store = s.store) ∧
    (∀ w, s.store.op = some (.write w) → ∃ n, n ≤ w.voids.length ∧ (n = 0 → u.store = s.store) ∧
      u.store = { s.store with
        op := some (.write { w with voids := w.voids.drop n }), active := u.store.active, spare := u.store.spare
        writeSlot := u.store.writeSlot, counts := u.store.counts, flash := u.store.flash } ∧
      (let passed := w.voids.take n
       let within : Fin 4 × Nat → Nat → Prop := fun x a => slotAddress x.1 x.2 ≤ a ∧ a < slotAddress x.1 x.2 + 32
       let behind : List (Fin 4 × Nat) → Nat → Nat := fun l i => (l.getLast?.map fun x => x.2 + 1).getD i
       let passedIn : Fin 4 → Nat := fun k => (passed.filter fun x => decide (x.1 = k)).length
       (s.memoriesSound →
         (∀ x ∈ passed, ∀ a, within x a → Memory.read 0xFF u.store.flash a = 0) ∧
         ∀ a, (∀ x ∈ passed, ¬ within x a) →
           Memory.read 0xFF u.store.flash a = Memory.read 0xFF s.store.flash a) ∧
       (∀ k : Fin 4, u.store.counts[k] = { s.store.counts[k] with
         free := s.store.counts[k].free - passedIn k, void := s.store.counts[k].void + passedIn k }) ∧
       ((∀ x ∈ passed, x.2 ≠ 255) ∨ s.store.spare = none →
         u.store.active = s.store.active ∧ u.store.spare = s.store.spare ∧
         u.store.writeSlot = behind passed s.store.writeSlot) ∧
       ∀ k a x b, s.store.spare = some k → passed = a ++ x :: b → x.2 = 255 → (∀ y ∈ a, y.2 ≠ 255) →
         u.store.active = k ∧ u.store.spare = none ∧ u.store.writeSlot = behind b 0)) ∧
    u.pending.Perm u.dueCommands ∧
    ∀ c : Instr, c ∈ u.pending ↔
      (∃ p t, c = .probeTimerExpiry p ∧ s.presses[p].link = .awaiting ∧ s.presses[p].probeDeadline = some t ∧
        reached u.tb t = true) ∨
      (∃ p t, c = .silenceDeadline p ∧ s.presses[p].link = .online ∧ s.presses[p].lastFrame = some t ∧
        s.silent p = false ∧ reached u.tb (t + ms s.presses[p].profile.linkTimeout) = true) ∨
      (∃ p w, c = .stallDeadline p ∧ s.presses[p].watch = some w ∧ s.presses[p].stalledTag = none ∧
        w.dropped = false ∧ reached u.tb w.deadline = true) ∨
      (∃ p t, c = .unbindDeadline p ∧ s.presses[p].unbindDeadline = some t ∧ reached u.tb t = true) ∨
      (∃ p k e t, c = .retryDeadline p k ∧ s.entry p k = some e ∧ e.state = .retryWait ∧ e.deadline = some t ∧
        reached u.tb t = true) ∨
      (∃ z t, c = .buttonDeadline z ∧ s.zones[z].deadline = some t ∧ reached u.tb t = true) ∨
      (∃ k ∈ s.ru.reports, c = .queueEvent k) ∨
      (∃ r ∈ s.mu.rises, c = .availabilityRiseReport r.press r.account) ∨
      (c = .storeWriteBegin ∧ u.store.writeDue = true) ∨ (c = .storeEraseBegin ∧ u.store.eraseDue = true) ∨
      (c = .scanEnd ∧ s.store.scan = some .ending)

/-- Every law of the part holds in the state after reset. The premises of the invariants below hold at reset; pins,
flash and memory contents of State.reset are the model's choices (log entries 2 to 4). -/
def Obligations.LawsHoldAtReset : Prop :=
  State.reset.linkSound ∧ State.reset.memoriesSound ∧ State.reset.extentsSound ∧ State.reset.metersBounded ∧
    State.reset.creditSound ∧ State.reset.holdsSound ∧ State.reset.zonesSound

/-- R201, R200, R198: ATTN# follows the pending flags and the mask, and both queues stay within their capacity. Inv:
attn is set exactly when some pending flag and its mask bit are both set, at most 48 notices, at most 8 replies. Every
next step keeps it, whatever the command and also for the tick of an empty queue (log entry 1). -/
def Obligations.AttentionAndQueuesKept : Prop :=
  ∀ s t : State, s.linkSound → step s = .next t → t.linkSound

/-- Every step keeps the canonical form of the spool memory and of the flash (the model's own form of a memory). The
form is the model's own (log entry 27); with it equal memories are equal data. -/
def Obligations.MemoriesStayCanonical : Prop :=
  ∀ s t : State, s.memoriesSound → step s = .next t → t.memoriesSound

/-- R25: every step leaves every extent either in the free list or in exactly one chain. -/
def Obligations.ExtentsFreeOrChained : Prop :=
  ∀ s t : State, s.extentsSound → step s = .next t → t.extentsSound

/-- R145: every step leaves every live counter within 0 to 999,999,999. -/
def Obligations.MetersStayInRange : Prop :=
  ∀ s t : State, s.metersBounded → step s = .next t → t.metersBounded

/-- R146: between a hardware reset (with its scan's load) and the next, no command lowers a live press meter. -/
def Obligations.MetersNeverDecrease : Prop :=
  ∀ (c : Instr) (s t : State), s.metersBounded → c.wf = true → mayReset c = false → c ≠ .scanReadDone →
    exec c s = .next t → ∀ p : Fin 16, s.mu.meters[p].live.le t.mu.meters[p].live

/-- R129: every step leaves every account's held amount equal to the charges of the path entries that bill to it. -/
def Obligations.HeldIsChargesInFlight : Prop :=
  ∀ s t : State, s.heldSound → step s = .next t → t.heldSound

/-- R129: every step leaves the availability of every account that is not ABSENT at 0 or above. -/
def Obligations.AvailabilityNeverNegative : Prop :=
  ∀ s t : State, s.creditSound → step s = .next t → t.creditSound

/-- R170: every step leaves a press held exactly when its alert table contains a LATCHED or RETRY entry. -/
def Obligations.HeldExactlyByAlerts : Prop :=
  ∀ s t : State, s.holdsSound → step s = .next t → t.holdsSound

/-- R187: every step leaves every zone's pattern the one that its members' entries give. -/
def Obligations.PatternsFollowEntries : Prop :=
  ∀ s t : State, s.zonesSound → step s = .next t → t.zonesSound

/-! ### Frames -/

/-- R196, R210: a whole message frame of up to 2,048 body bytes, fed to a receiver in HUNT, is the one request that it
encodes, and the receiver is in HUNT again. The receiver is a function of bytes (log entry 11). -/
def Obligations.MessageFramesDecode : Prop :=
  ∀ (typ tag : Byte) (body : List Byte), body.length ≤ Config.maxBody →
    RxState.hunt.feedAll (messageFrame typ tag body) = (.hunt, [.request typ tag body])

/-- R70, R210: a whole feed-link frame from a press, fed to a hunting engine, is the frame that it encodes. For every
frame kind and operand, a FAULT with at most 8 tags (log entry 11). -/
def Obligations.FeedFramesDecode : Prop :=
  ∀ f : PressFrame, (∀ k d tags, f = .fault k d tags → tags.length ≤ 8) →
    FeedRx.hunt.feedAll (feedFrame f.typ f.body) = (.hunt, [.frame f])

/-- R150: a meter record in range, programmed into its 32 bytes, reads back as the record it was. That its check has no
reflection and no final inversion is log entry 43 (DESIGN CHOICE). -/
def Obligations.MeterRecordsReadBack : Prop :=
  ∀ (p : Fin 16) (n : Nat) (c : Counters), 1 ≤ n → n ≤ Config.maxSequence → c.inRange = true →
    (recordBytes p n c).length = 32 ∧
      slotKindOf (recordBytes p n c) = .record { press := p, sequence := n, counters := c }

/-! ### Requests as such -/

/-- R197: a request that finds 8 replies waiting has no effect and draws no reply, and the lost-request flag is set; a
type byte that names no request, every type of 0x80 and above included, is answered UNKNOWN. That an unknown type is
answered UNKNOWN during the start-up scan too is the model's reading (log entry 21). -/
def Obligations.RequestsDroppedOrUnknown : Prop :=
  (∀ (c : Instr) (typ tag : Byte) (s : State), requestOf c = some (typ, tag) → 8 ≤ s.mlc.replies.length →
    exec c s = .next { s with mlc := { s.mlc with lostRequest := true } }) ∧
  (∀ (typ tag : Byte) (body : List Byte) (s : State), 8 ≤ s.mlc.replies.length →
    exec (.requestDropped typ tag body) s = .next { s with mlc := { s.mlc with lostRequest := true } }) ∧
  ∀ (typ tag : Byte) (body : List Byte) (s : State), (namesRequest typ = false ∨ 0x80 ≤ typ.toNat) →
    s.mlc.replies.length < 8 → exec (.unknownRequest typ tag body) s = .next (s.reply typ tag .unknown [])

/-- R203: while the start-up scan runs, every request that names a type is refused MODE, except IDENTIFY and STATUS. -/
def Obligations.ScanRefusesRequests : Prop :=
  ∀ (c : Instr) (typ tag : Byte) (s : State), requestOf c = some (typ, tag) → refusedInScan c = true →
    s.store.state = .scanning → s.mlc.replies.length < 8 → exec c s = .next (s.reply typ tag .mode [])

/-- R199: a request refused with any code other than OK and ABANDONED has changed nothing but the reply queue. -/
def Obligations.RefusalsChangeNothing : Prop :=
  ∀ (c : Instr) (typ tag : Byte) (s t : State) (r : Reply) (b : Byte) (l : List Byte),
    requestOf c = some (typ, tag) → exec c s = .next t → t.mlc.replies = s.mlc.replies ++ [r] → r.body = b :: l →
    b ≠ 0x00 → b ≠ 0x0C →
    t = { s with mlc := { s.mlc with replies := s.mlc.replies ++ [r], lostRequest := false } }

/-! ### Resets -/

/-- R208 and the hardware reset rule of every chapter, for the three rows that reset the hardware: what each block
holds after it, and the contents of the spool memory and of the flash. The three reset rows complete with this state.
R150, R162: the flash is what it was, but for the operation the reset cuts off. A write has cleared bits, in the slots of its
programs alone, and its record's slot, free before, is torn, or free still where the write had a slot left to void on its
way; an erase has set bits, in its sector alone. Which bits is a free value (log entry 6), and the form of a record's check is log
entry 43 (DESIGN CHOICE). -/
def Obligations.HardwareResetLeaves : Prop :=
  ∀ (c : Instr) (cause : ResetCause) (pins : Pins) (s : State),
    (c = .powerOnReset pins ∧ cause = .powerOn ∨ c = .rstPinReset pins ∧ cause = .pin ∨
      (∃ tag, c = .resetHard tag [0] pins) ∧ cause = .request ∧ s.takes = true) →
    ∃ t, exec c s = .next t ∧ t.pending = s.pending ∧ t.pins = pins ∧ t.tb = 0 ∧
      t.mlc.misoByte = 0xFF ∧
      t.mlc = { rx := .hunt, miso := .reply 0, replies := [], lostRequest := false, notices := [], overflow := false,
                pendingFlags := 0, mask := 0, attn := false, mode := .setup, discarded := 0 } ∧
      (∀ i : Fin 64, t.jobs[i] = { gen := 0, job := none }) ∧
      t.smm.size = spoolSizeOf pins ∧ t.smm.free = List.range t.smm.size.extents ∧ t.smm.owners = [] ∧
      (∀ i : Fin 64, t.smm.slots[i] = { chain := [], wpos := ⟨0, 0⟩, sheets := [] }) ∧ t.smm.mem = s.smm.mem ∧
      (∀ i : Fin 32, t.ru.filters[i] = { enabled := false, value := 0, mask := 0, ink := .any, sides := .any,
                                         pattern := [], compare := 0, cls := 0 }) ∧
      (∀ k : Fin 8, t.ru.queues[k] = { entries := [], capacity := 8 }) ∧
      (∀ p : Fin 16, t.presses[p].link = .disabled ∧ t.presses[p].reported = none ∧ t.presses[p].applied = none ∧
        t.presses[p].probes = 0 ∧ t.presses[p].badChecks = 0 ∧ t.presses[p].tagCounter = 0 ∧
        t.presses[p].bound = none ∧ t.presses[p].path = [] ∧ t.presses[p].held = false ∧ t.presses[p].cond = none ∧
        t.presses[p].profile.classes = [0] ∧ t.presses[p].profile.caps = ⟨true, true, 0xFF⟩ ∧
        t.presses[p].profile.zone.val = p.val / 4 ∧ t.presses[p].profile.linkTimeout = 2000 ∧
        t.presses[p].profile.stallTime = 20 ∧ t.presses[p].profile.unbindTime = 120 ∧
        t.presses[p].profile.checkpoint = 100) ∧
      (∀ i : Fin 8, t.mu.plans[i] = Plan.fresh) ∧ (∀ a : Fin 256, t.mu.accounts[a] = Account.absent) ∧
      (∀ p : Fin 16, t.mu.meters[p] = { live := ⟨0, 0, 0, 0⟩, since := 0 }) ∧
      t.store.state = .scanning ∧ t.store.scan = some .reading ∧ t.store.cause = cause ∧ t.store.victim = none ∧
      t.store.attempts = 0 ∧ t.store.saveOwed = false ∧ (∀ p : Fin 16, t.store.marks[p] = ⟨false, false⟩) ∧
      (s.store.op = none → t.store.flash = s.store.flash) ∧
      (s.memoriesSound →
        let old : Nat → Byte := Memory.read 0xFF s.store.flash
        let new : Nat → Byte := Memory.read 0xFF t.store.flash
        let within : Fin 4 × Nat → Nat → Prop := fun x a => slotAddress x.1 x.2 ≤ a ∧ a < slotAddress x.1 x.2 + 32
        (∀ w, s.store.op = some (.write w) →
          (∀ a, (∀ x ∈ (w.sector, w.slot) :: w.voids, ¬ within x a) → new a = old a) ∧
          (∀ a, new a &&& old a = new a) ∧
          (s.store.freeAt w.sector w.slot = true → (∀ x ∈ w.voids, x ≠ (w.sector, w.slot)) →
            (∀ x ∈ (w.sector, w.slot) :: w.voids, x.2 < 256) →
            slotKindOf (slotContent t.store.flash w.sector w.slot) = .torn ∨
              w.voids ≠ [] ∧ slotContent t.store.flash w.sector w.slot = slotContent s.store.flash w.sector w.slot)) ∧
        ∀ k : Fin 4, s.store.op = some (.erase k) →
          (∀ a, a < k.val * 8192 ∨ (k.val + 1) * 8192 ≤ a → new a = old a) ∧ ∀ a, new a &&& old a = old a) ∧
      t.au.modes.toList = [⟨.latched, 10⟩, ⟨.retry, 5⟩, ⟨.retry, 3⟩, ⟨.latched, 10⟩, ⟨.retry, 10⟩, ⟨.latched, 10⟩,
        ⟨.retry, 10⟩, ⟨.latched, 10⟩, ⟨.report, 10⟩, ⟨.report, 10⟩, ⟨.report, 10⟩] ∧
      (∀ p : Fin 16, t.au.tables[p] = emptyTable) ∧
      t.zones.toList = [pins.ack0, pins.ack1, pins.ack2, pins.ack3].map fun on =>
        { pattern := .off, phase := none, button := if on then .pressed else .released, deadline := none, acks := 0,
          lastAck := none }

/-- R209 and the RESET SOFT rule of every chapter: what is cleared and what is kept. The coding of cause SOFT as 3 and
its detail without a store state are the model's choice (log entry 20). -/
def Obligations.SoftResetClearsAndKeeps : Prop :=
  ∀ (tag : Byte) (s : State), s.takes = true →
    ∃ t, exec (.resetSoft tag [1]) s = .next t ∧ t.tb = s.tb ∧ t.pins = s.pins ∧ t.mlc.mode = .setup ∧
      t.mlc.mask = s.mlc.mask ∧ t.mlc.overflow = false ∧ t.mlc.lostRequest = false ∧ t.mlc.pendingFlags = 0x80 ∧
      t.mlc.attn = s.mlc.mask.getLsbD 7 ∧ t.mlc.rx = .hunt ∧ t.mlc.miso = .reply 0 ∧
      t.mlc.notices = [{ kind := .mode, subtype := 1, object := 0, time := s.tb, detail := [3, 0, 0, 0] }] ∧
      t.mlc.replies = [{ typ := 0x83, tag, body := [0x00, 0x00, 1, 0, 0x80] }] ∧
      (∀ i : Fin 64, t.jobs[i] = { gen := s.jobs[i].gen, job := none }) ∧
      t.smm.size = s.smm.size ∧ t.smm.free = List.range s.smm.size.extents ∧ t.smm.mem = s.smm.mem ∧
      (∀ i : Fin 64, t.smm.slots[i] = { chain := [], wpos := ⟨0, 0⟩, sheets := [] }) ∧
      t.ru.filters = s.ru.filters ∧
      (∀ k : Fin 8, t.ru.queues[k] = { entries := [], capacity := s.ru.queues[k].capacity }) ∧
      (∀ p : Fin 16, t.presses[p].profile = s.presses[p].profile ∧ t.presses[p].badChecks = s.presses[p].badChecks ∧
        t.presses[p].path = [] ∧ t.presses[p].bound = none ∧ t.presses[p].held = false ∧
        t.presses[p].tagCounter = 0 ∧ t.presses[p].tx = none ∧
        (s.presses[p].link = .disabled → t.presses[p].link = .disabled ∧ t.presses[p].out = s.presses[p].out) ∧
        (s.presses[p].link ≠ .disabled → t.presses[p].link = .awaiting ∧ t.presses[p].reported = none ∧
          t.presses[p].applied = none ∧ t.presses[p].lastFrame = none ∧
          t.presses[p].probes = min 255 (s.presses[p].probes + 1) ∧
          ∃ l, t.presses[p].out = s.presses[p].out ++ l ++ [.purge, .probe])) ∧
      t.mu.plans = s.mu.plans ∧ (∀ a : Fin 256, t.mu.accounts[a] = { s.mu.accounts[a] with held := 0 }) ∧
      (∀ p : Fin 16, t.mu.meters[p] = { s.mu.meters[p] with since := 0 }) ∧
      t.store.flash = s.store.flash ∧ t.store.op = s.store.op ∧ t.store.state = s.store.state ∧
      t.store.newest = s.store.newest ∧ t.store.victim = s.store.victim ∧ t.store.saveOwed = false ∧
      (∀ p : Fin 16, t.store.marks[p] = { pending := true, forced := s.store.marks[p].forced }) ∧
      t.au.modes = s.au.modes ∧ (∀ p : Fin 16, t.au.tables[p] = emptyTable) ∧
      (∀ z : Fin 4, t.zones[z] = { s.zones[z] with pattern := .off, phase := none })

/-! ### The message link -/

/-- R205 and R206: what IDENTIFY and STATUS carry. They change nothing and are answered during the scan too. The
layout of the bodies is the model's reading of R211 (log entry 10); the revision letter is a free value (log entry 7). That
the figures are the ones held then, in a scan with a discarded frame too, is log entry 42 (DESIGN CHOICE). -/
def Obligations.IdentifyAndStatusReport : Prop :=
  ∀ (tag : Byte) (s : State), s.mlc.replies.length < 8 →
    exec (.identify tag []) s = .next (s.reply 0x01 tag .ok
      ([0x0B, 0x6A, 0x50, 0x53, 0x31, 0x36, 0x30, 0x38, Config.revisionLetter] ++
        (match s.smm.size with
          | .mib128 => u16 128 ++ u16 1984
          | .mib256 => u16 256 ++ u16 4032
          | .mib512 => u16 512 ++ u16 8128) ++ u16 2048)) ∧
    exec (.status tag []) s = .next (s.reply 0x02 tag .ok
      (u8 s.mlc.mode.code ++ flag (decide (s.store.state = .scanning)) ++ timeBytes s.tb ++
        u8 (s.jobs.toList.filter fun sl => sl.job.isSome).length ++
        ([JobState.opened, .queued, .active, .ending, .done, .failed, .cancelled].flatMap fun st =>
          u8 (s.jobs.toList.filter fun sl => match sl.job with
            | some j => decide (j.state = st)
            | none => false).length) ++
        u16 s.smm.free.length ++
        (s.ru.queues.toList.flatMap fun q => u8 q.entries.length ++ q.flagsByte) ++
        (s.presses.toList.flatMap fun pr =>
          u8 pr.stateCode ++ flag pr.held ++ opt (fun c : FeedCond => u8 c.code) pr.cond ++ u8 pr.path.length) ++
        u8 s.store.state.code ++ u8 ((List.finRange 16).filter fun p => s.store.marks[p].pending).length ++
        (s.zones.toList.flatMap fun z => u8 z.pattern.code) ++ u8 s.mlc.notices.length ++ flag s.mlc.overflow ++
        [s.mlc.pendingFlags, s.mlc.mask]))

/-- R203, R204, R110: MODE_SET RUN makes the mode RUN and touches no store, alert, zone, spool, plan or meter state and no
press that is not ONLINE; MODE_SET QUIESCE in RUN leaves QUIESCING, or SETUP with the QUIESCED notice and all presses
marked pending when every path is empty; in SETUP it is refused MODE. The object number 0 of the QUIESCED notice is log
entry 37 (DESIGN CHOICE). -/
def Obligations.ModeSetMovesMode : Prop :=
  (∀ (tag : Byte) (s : State), s.takes = true → ∃ u : State,
    exec (.modeSetRun tag [0]) s = .next (u.reply 0x04 tag .ok [1]) ∧ u.mlc.mode = .run ∧
    (s.mlc.mode = .run → u = s) ∧ u.tb = s.tb ∧ u.store = s.store ∧ u.au = s.au ∧ u.zones = s.zones ∧
    u.smm = s.smm ∧ u.mu.plans = s.mu.plans ∧ u.mu.meters = s.mu.meters ∧ u.mlc.mask = s.mlc.mask ∧
    ∀ p : Fin 16, s.presses[p].link ≠ .online → u.presses[p] = s.presses[p]) ∧
  (∀ (tag : Byte) (s : State), s.takes = true → s.mlc.mode = .run → ∃ u : State,
    exec (.modeSetQuiesce tag [1]) s = .next (u.reply 0x04 tag .ok (u8 u.mlc.mode.code)) ∧
    u.jobs = s.jobs ∧ u.smm = s.smm ∧ u.ru = s.ru ∧ u.mu = s.mu ∧ u.au = s.au ∧ u.zones = s.zones ∧ u.tb = s.tb ∧
    (∀ p : Fin 16, u.presses[p].path = s.presses[p].path ∧ u.presses[p].bound = s.presses[p].bound ∧
      u.presses[p].held = s.presses[p].held ∧ u.presses[p].out = s.presses[p].out) ∧
    ((∃ p : Fin 16, s.presses[p].path ≠ []) → u.mlc = { s.mlc with mode := .quiescing } ∧ u.store = s.store) ∧
    ((∀ p : Fin 16, s.presses[p].path = []) →
      u.mlc = Mlc.enqueue { kind := .mode, subtype := 0, object := 0, time := s.tb, detail := [0, 0, 0, 0] }
        { s.mlc with mode := .setup } ∧
      u.store = { s.store with marks := u.store.marks } ∧
      ∀ p : Fin 16, u.store.marks[p] = { pending := true, forced := s.store.marks[p].forced })) ∧
  ∀ (tag : Byte) (s : State), s.takes = true → s.mlc.mode = .setup →
    exec (.modeSetQuiesce tag [1]) s = .next (s.reply 0x04 tag .mode [])

/-- R200, R202, R201: a notice joins the tail with the time of its event where fewer than 48 wait, and is dropped with the
overflow flag set where 48 wait; in either case the pending flag of its kind is set and ATTN# driven. FETCH_NOTICES
removes from the head and clears OVERFLOW when it leaves the queue empty; ATTN_MASK writes the mask and ATTN_CLEAR clears
the flags named, and each drives ATTN# afresh. Nothing else changes. -/
def Obligations.NoticesFetchedAttentionDriven : Prop :=
  (∀ (kind : NoticeKind) (subtype object : Nat) (detail : List Byte) (s : State),
    let flags := s.mlc.pendingFlags ||| BitVec.ofNat 8 (2 ^ kind.code)
    let flagged : Mlc := { s.mlc with pendingFlags := flags, attn := decide (flags &&& s.mlc.mask ≠ 0) }
    let filled := if detail.length < 4 then detail ++ List.replicate (4 - detail.length) 0 else detail
    (s.mlc.notices.length < 48 → State.notice kind subtype object detail s =
      { s with mlc := { flagged with
          notices := s.mlc.notices ++ [{ kind, subtype, object, time := s.tb, detail := filled }] } }) ∧
    (48 ≤ s.mlc.notices.length →
      State.notice kind subtype object detail s = { s with mlc := { flagged with overflow := true } })) ∧
  ∀ (tag : Byte) (s : State), s.takes = true →
    (∀ n : Byte, 1 ≤ n.toNat → n.toNat ≤ 16 →
      exec (.fetchNotices tag [n]) s = .next
        (State.reply 0x05 tag .ok
          (u8 (min n.toNat s.mlc.notices.length) ++ (s.mlc.notices.take n.toNat).flatMap Notice.bytes)
          { s with mlc := { s.mlc with
              notices := s.mlc.notices.drop n.toNat
              overflow := if s.mlc.notices.length ≤ n.toNat then false else s.mlc.overflow } })) ∧
    (∀ m : Byte, exec (.attnMask tag [m]) s = .next
      (State.reply 0x06 tag .ok [s.mlc.mask, m]
        { s with mlc := { s.mlc with mask := m, attn := decide (s.mlc.pendingFlags &&& m ≠ 0) } })) ∧
    (∀ k : Byte, exec (.attnClear tag [k]) s = .next
      (State.reply 0x07 tag .ok [s.mlc.pendingFlags &&& ~~~k]
        { s with mlc := { s.mlc with
            pendingFlags := s.mlc.pendingFlags &&& ~~~k
            attn := decide (s.mlc.pendingFlags &&& ~~~k &&& s.mlc.mask ≠ 0) } }))

/-- R196, R198: a discarded frame puts the receiver in HUNT, is counted up to 65,535, and queues the LINK notice of
its subtype with the type and tag reached. CS# going high discards a partial frame wherever it broke off: after its sync
byte or one length byte, in its content, or in its check. MISO carries the bytes of the reply at the head of the queue, one
0xFF after a reply, and 0xFF while the queue is empty; a reply whose bytes have gone leaves the queue, and one partly sent
begins again at its sync byte after CS# has gone high. Nothing else changes. Frames are commands as wholes, and what MISO
carries is a function of bytes (log entry 11); one presence byte for type and one for tag in the detail, and its order, are
the model's choice (log entry 10). -/
def Obligations.PortEventsDiscardAndSend : Prop :=
  let discarded : Nat → Option Byte → Option Byte → State → State := fun subtype typ tag s =>
    let shown : Option Byte → List Byte := fun x => match x with
      | some b => [1, b]
      | none => [0]
    State.notice .link subtype 0 (shown typ ++ shown tag ++ u16 (min 65535 (s.mlc.discarded + 1)))
      { s with mlc := { s.mlc with rx := .hunt, discarded := min 65535 (s.mlc.discarded + 1) } }
  let rewound : State → State := fun s => { s with mlc := { s.mlc with miso := .reply 0 } }
  (∀ (len : Half) (s : State), 2048 < len.toNat →
    exec (.frameBadLength len) s = .next (discarded 0 none none s)) ∧
  (∀ (typ tag : Byte) (body : List Byte) (check : Half) (s : State),
    crc16 (u16 body.length ++ typ :: tag :: body) ≠ check →
      exec (.frameBadCheck typ tag body check) s = .next (discarded 1 (some typ) (some tag) s)) ∧
  (∀ (fill : List Byte) (s : State), s.mlc.rx = .hunt → (∀ b ∈ fill, b ≠ 0xB5) →
    exec (.csDeasserted fill) s = .next (rewound s) ∧
    (∀ l : List Byte, l.length ≤ 1 →
      exec (.csDeasserted (fill ++ 0xB5 :: l)) s = .next (discarded 2 none none (rewound s))) ∧
    ∀ (n : Nat) (content check : List Byte), n ≤ 2048 →
      (content.length ≤ n + 2 ∧ check = [] ∨ content.length = n + 2 ∧ check.length = 1) →
      exec (.csDeasserted (fill ++ 0xB5 :: (u16 n ++ content ++ check))) s =
        .next (discarded 2 content[0]? content[1]? (rewound s))) ∧
  (∀ (mosi : List Byte) (s : State), s.mlc.rx = .hunt → (RxState.hunt.feedAll mosi).1 = .hunt →
    exec (.csDeasserted mosi) s = .next (rewound s)) ∧
  (∀ s : State, s.mlc.replies = [] → s.mlc.misoByte = 0xFF ∧ exec .replyClockedOut s = .next s) ∧
  ∀ (s : State) (r : Reply) (l : List Reply), s.mlc.replies = r :: l →
    exec .replyClockedOut s = .next { s with mlc := { s.mlc with miso := .gap, replies := l } } ∧
    (s.mlc.miso = .reply 0 →
      (s.mlc.clockOut s.mlc.bytesToGo).1 = messageFrame r.typ r.tag r.body) ∧
    (s.mlc.miso = .gap →
      (s.mlc.clockOut s.mlc.bytesToGo).1 = 0xFF :: messageFrame r.typ r.tag r.body)

/-! ### Jobs and their spool (chapters 1 and 2) -/

/-- R3, R4, R1: an accepted JOB_OPEN takes the lowest free slot with its next generation, records what it carries with
the filter and class of the lowest-numbered match, and queues a stream job. Nothing else changes. -/
def Obligations.JobOpenTakesSlot : Prop :=
  ∀ (tag : Byte) (v : JobOpenValues) (i : Fin 64) (f : Fin 32) (s : State), s.takes = true →
    v.label.length ≤ 24 → 1 ≤ v.copies → v.copies ≤ 9999 → s.mu.accounts[v.account].state ≠ .absent →
    s.jobs[i].job = none → (∀ k : Fin 64, k < i → s.jobs[k].job ≠ none) →
    s.ru.filters[f].matchesJob v.key v.ink v.sides v.label = true →
    (∀ k : Fin 32, k < f → s.ru.filters[k].matchesJob v.key v.ink v.sides v.label = false) →
    (v.stream = true →
      s.ru.queues[s.ru.filters[f].cls].entries.length < s.ru.queues[s.ru.filters[f].cls].capacity) →
    let g : Byte := if s.jobs[i].gen = 255 then 1 else s.jobs[i].gen + 1
    let k := s.ru.filters[f].cls
    exec (.jobOpen tag (u16 v.account.val ++ u32 v.key.toNat ++ list8 (fun b => [b]) v.label ++ u8 v.ink.code ++
        u8 v.sides.code ++ u8 v.grade.val ++ u16 v.copies ++ flag v.urgent ++ u8 v.jam.code ++ flag v.stream)) s =
      .next (State.reply 0x10 tag .ok ([BitVec.ofNat 8 i.val, g] ++ u8 k.val ++ u8 f.val)
        { s with
          jobs := s.jobs.set i
            { gen := g
              job := some
                { state := if v.stream then .queued else .opened, account := v.account, key := v.key,
                  label := v.label, ink := v.ink, sides := v.sides, grade := v.grade, copies := v.copies,
                  urgent := v.urgent, jam := v.jam, stream := v.stream, filter := f, cls := k, sheets := 0,
                  closed := false, openSheet := none, press := none, cursor := .next 1 1, reprint := [],
                  delivered := 0, faces := 0, lost := 0, charged := 0, coming := none, endRecord := none,
                  openedAt := s.tb, endedAt := none } }
          ru := if v.stream then
              { s.ru with
                queues := s.ru.queues.set k { s.ru.queues[k] with
                  entries := placeEntry { handle := { slot := i, gen := g }, urgent := v.urgent }
                    s.ru.queues[k].entries }
                reports := s.ru.reports ++ [k] }
            else s.ru })

/-- R52: a job inserted by JOB_OPEN or JOB_CLOSE goes to the tail when it is not urgent, directly behind the last urgent
job when it is, and to the head when the queue holds no urgent job. -/
def Obligations.UrgentJobsPlacedBehindUrgent : Prop :=
  ∀ (e u : QueueEntry) (a b : List QueueEntry),
    (e.urgent = false → placeEntry e a = a ++ [e]) ∧
    (e.urgent = true → (∀ x ∈ a, x.urgent = false) → placeEntry e a = e :: a) ∧
    (e.urgent = true → u.urgent = true → (∀ x ∈ b, x.urgent = false) →
      placeEntry e (a ++ u :: b) = a ++ u :: e :: b)

/-- R48, R49, R50, R45: the filter chosen is the lowest-numbered enabled one that passes the key, ink, sides and label tests,
each as the manual words it; no filter is chosen when none passes. Every compare length is within its pattern, as
FILTER_SET leaves it (R45). -/
def Obligations.LowestMatchingFilterRoutes : Prop :=
  ∀ (r : Ru) (key : Key) (ink : Ink) (sides : Sides) (label : List Byte),
    let passes : Fin 32 → Prop := fun i =>
      let f := r.filters[i]
      f.enabled = true ∧ (∀ b : Fin 32, f.mask.getLsbD b.val = true → key.getLsbD b.val = f.value.getLsbD b.val) ∧
        (f.ink = .any ∨ (f.ink = .mono ∧ ink = .mono) ∨ (f.ink = .color ∧ ink = .color)) ∧
        (f.sides = .any ∨ (f.sides = .simplex ∧ sides = .simplex) ∨ (f.sides = .duplex ∧ sides = .duplex)) ∧
        (f.compare ≤ f.pattern.length → ∀ n < min f.compare label.length, label[n]? = f.pattern[n]?)
    (∀ i : Fin 32, r.filters[i].compare ≤ r.filters[i].pattern.length) →
    (∀ i, r.route key ink sides label = some i ↔ passes i ∧ ∀ k : Fin 32, k < i → ¬ passes k) ∧
      (r.route key ink sides label = none ↔ ∀ i : Fin 32, ¬ passes i)

/-- R30 to R33: an accepted SHEET_BEGIN writes the record of sheet N + 1 with the inks and coverages of R31 and opens
it; one that finds an open sheet answers ABANDONED, takes the same number and puts the write position back to where
that sheet began. Chain, free list and everything else stay. Records are data (log entry 12); the count byte before the
faces of request and reply is the model's layout (log entry 10). -/
def Obligations.SheetBeginOpensNextSheet : Prop :=
  ∀ (tag : Byte) (h : Handle) (j : Job) (ink1 ink2 : Ink) (cov1 cov2 : Byte) (len1 len2 : Nat) (two : Bool) (s : State),
    s.takes = true → s.jobOf h = some j → j.closed = false → 1 ≤ len1 → len1 < 2 ^ 24 → 1 ≤ len2 → len2 < 2 ^ 24 →
    (two = true → j.sides = .duplex) → j.sheets < 4096 →
    (∀ n, j.openSheet = some n → n = j.sheets + 1 ∧ ∃ r, s.smm.sheet? h.slot n = some r) →
    let settled : Ink → Byte → Nat → Face := fun ink cov len =>
      if ink = .color ∧ j.ink = .color then ⟨.color, min 100 cov.toNat, len⟩ else ⟨.mono, 0, len⟩
    let changed : Ink → Byte → Bool := fun ink cov => decide (ink = .color ∧ (j.ink = .mono ∨ 100 < cov.toNat))
    let shown : Ink → Byte → Nat → List Byte := fun ink cov len =>
      u8 (settled ink cov len).ink.code ++ u8 (settled ink cov len).coverage ++ flag (changed ink cov)
    let sp := s.smm.slots[h.slot]
    let back : WritePos := match (j.openSheet.bind (s.smm.sheet? h.slot)).bind SheetRecord.start with
      | some st => ⟨s.smm.positionOf st.extent, st.offset⟩
      | none => sp.wpos
    exec (.sheetBegin tag (h.bytes ++ u8 (if two then 2 else 1) ++ u8 ink1.code ++ [cov1] ++ u24 len1 ++
        (if two then u8 ink2.code ++ [cov2] ++ u24 len2 else []))) s =
      .next (State.reply 0x11 tag (if j.openSheet.isSome then .abandoned else .ok)
        (u16 (j.sheets + 1) ++ u8 (if two then 2 else 1) ++ shown ink1 cov1 len1 ++
          (if two then shown ink2 cov2 len2 else []) ++ u32 (len1 + if two then len2 else 0))
        { s with
          jobs := s.jobs.set h.slot
            { gen := h.gen, job := some { j with openSheet := some (j.sheets + 1) } }
          smm := { s.smm with
            slots := s.smm.slots.set h.slot { sp with
              wpos := back
              sheets := sp.sheets.take j.sheets ++
                [{ complete := false, face1 := settled ink1 cov1 len1,
                   face2 := if two then some (settled ink2 cov2 len2) else none, start := none, received := 0 }] } } })

/-- R34, R35, R27, R37: an accepted FACE_DATA stores its bytes at the write position along the chain, taking the head of the
free list when the chain does not reach, and marking it owned in the extent table; every other byte of the spool memory reads
as before, every other sheet record and extent stays, and a sheet whose total is reached completes. Where that gives an ACTIVE job's press no opportunity, nothing else changes. The address of byte k is
computed as the meaning computes it. The write position is within an extent of the chain, or at the first byte behind it, as
R27 keeps it. That the bytes of the sheet index region read as before too, since the sheet's record is data beside the
memory, is log entry 12, and that the reply's yes is a 1 is log entry 10 (both DESIGN CHOICE). -/
def Obligations.FaceDataStoresAtWritePosition : Prop :=
  ∀ (tag : Byte) (h : Handle) (j : Job) (n : Nat) (r : SheetRecord) (chunk : List Byte) (s : State),
    s.takes = true → s.extentsSound → s.memoriesSound → s.jobOf h = some j → j.closed = false →
    j.openSheet = some n → 1 ≤ n → s.smm.sheet? h.slot n = some r → 1 ≤ chunk.length → chunk.length ≤ 2044 →
    r.received + chunk.length ≤ r.total →
    s.smm.slots[h.slot].wpos.off < 65536 →
    (s.smm.slots[h.slot].wpos.pos < s.smm.slots[h.slot].chain.length ∨
      s.smm.slots[h.slot].wpos.pos = s.smm.slots[h.slot].chain.length ∧ s.smm.slots[h.slot].wpos.off = 0) →
    let sp := s.smm.slots[h.slot]
    let first := sp.wpos.pos * 65536 + sp.wpos.off
    let needs : Prop := sp.chain.length ≤ (first + chunk.length - 1) / 65536
    (needs → s.smm.free ≠ []) →
    ∃ t chain, exec (.faceData tag (h.bytes ++ u16 chunk.length ++ chunk)) s = .next t ∧
      (needs → chain = sp.chain ++ s.smm.free.take 1 ∧ t.smm.free = s.smm.free.drop 1) ∧
      (¬ needs → chain = sp.chain ∧ t.smm.free = s.smm.free) ∧
      t.smm.slots[h.slot].chain = chain ∧
      t.smm.slots[h.slot].wpos = ⟨(first + chunk.length) / 65536, (first + chunk.length) % 65536⟩ ∧
      (∀ i : Fin 64, i ≠ h.slot → t.smm.slots[i] = s.smm.slots[i]) ∧ t.smm.size = s.smm.size ∧
      t.smm.owners = s.smm.owners ++ (if needs then s.smm.free.take 1 else []).map
        (fun e => (e, { handle := h, position := sp.chain.length })) ∧
      t.smm.slots[h.slot].sheets.length = sp.sheets.length ∧
      (∀ m, 1 ≤ m → m ≠ n → t.smm.sheet? h.slot m = s.smm.sheet? h.slot m) ∧
      (let address : Nat → Nat := fun k => chain.getD ((first + k) / 65536) 0 * 65536 + (first + k) % 65536
       (∀ k, k < chunk.length →
         some (Memory.read Config.unwrittenByte t.smm.mem (address k)) = chunk[k]?) ∧
       ∀ a, (∀ k, k < chunk.length → a ≠ address k) →
         Memory.read Config.unwrittenByte t.smm.mem a = Memory.read Config.unwrittenByte s.smm.mem a) ∧
      (let got := r.received + chunk.length
       t.smm.sheet? h.slot n = some { r with
         received := got
         complete := if got = r.total then true else r.complete
         start := if r.received = 0 then some ⟨chain.getD sp.wpos.pos 0, sp.wpos.off⟩ else r.start } ∧
       ((j.state ≠ .active ∨ got ≠ r.total) →
         t.jobs = s.jobs.set h.slot
           ⟨h.gen, some (if got = r.total then { j with sheets := j.sheets + 1, openSheet := none } else j)⟩ ∧
         t.mlc = (State.reply 0x12 tag .ok
           (u16 n ++ u32 got ++ u32 (r.total - got) ++ flag (decide (got = r.total))) s).mlc ∧
         t = { s with mlc := t.mlc, jobs := t.jobs, smm := t.smm }))

/-- R11, R12, R15: JOB_CLOSE of an OPEN job closes the upload and queues the job. Of a stream job that is QUEUED, or
ACTIVE outside RUN, whose cursor stands behind its last sheet, it moves the cursor to the next copy, or to ALL_DISPATCHED
after the last one; any other cursor stays, and of an ACTIVE job's press, outside RUN, only the feed condition and the unbind
timer may change. A QUEUED stream job that is then done leaves its queue and enters DONE, with its
chain freed and its JOB notice queued. The upload of every stream job that is QUEUED or ACTIVE closes. -/
def Obligations.JobCloseQueuesOrNormalises : Prop :=
  ∀ (tag : Byte) (h : Handle) (j : Job) (s : State), s.takes = true → s.jobOf h = some j → j.closed = false →
    j.openSheet = none → 1 ≤ j.sheets →
    let request : Instr := .jobClose tag h.bytes
    let setJob : Job → State := fun r => { s with jobs := s.jobs.set h.slot { gen := h.gen, job := some r } }
    let answer : State → State := State.reply 0x13 tag .ok (u16 j.sheets)
    (j.state = .opened → j.stream = false → s.ru.queues[j.cls].entries.length < s.ru.queues[j.cls].capacity →
      exec request s = .next (answer
        { setJob { j with closed := true, state := .queued } with
          ru := { s.ru with
            queues := s.ru.queues.set j.cls { s.ru.queues[j.cls] with
              entries := placeEntry { handle := h, urgent := j.urgent } s.ru.queues[j.cls].entries }
            reports := s.ru.reports ++ [j.cls] } })) ∧
    (j.state = .queued → j.stream = true → j.press = none →
      (∀ c, j.cursor = .next c (j.sheets + 1) → c < j.copies →
        exec request s = .next (answer (setJob { j with closed := true, cursor := .next (c + 1) 1 }))) ∧
      (j.cursor = .next j.copies (j.sheets + 1) → j.reprint ≠ [] →
        exec request s = .next (answer (setJob { j with closed := true, cursor := .allDispatched }))) ∧
      (∀ c n, j.cursor = .next c n → n ≠ j.sheets + 1 →
        exec request s = .next (answer (setJob { j with closed := true }))) ∧
      ((j.cursor = .next j.copies (j.sheets + 1) ∨ j.cursor = .allDispatched) → j.reprint = [] → ∃ u r,
        exec request s = .next (answer u) ∧ u.jobs[h.slot] = { gen := h.gen, job := some r } ∧ r.state = .done ∧
        r.closed = true ∧ r.sheets = j.sheets ∧ r.delivered = j.delivered ∧ r.press = none ∧ r.endedAt = some s.tb ∧
        (∃ x, r.endRecord = some x ∧ x.reason = .done ∧ x.failedSheet = none) ∧
        u.ru.queues[j.cls].entries = s.ru.queues[j.cls].entries.filter (fun x => decide (x.handle ≠ h)) ∧
        (∀ k : Fin 8, k ≠ j.cls → u.ru.queues[k] = s.ru.queues[k]) ∧ u.ru.filters = s.ru.filters ∧
        u.smm.free = s.smm.free ++ s.smm.slots[h.slot].chain ∧
        u.smm.slots[h.slot] = { chain := [], wpos := ⟨0, 0⟩, sheets := [] } ∧
        u.mlc = (State.notice .job 0 h.slot.val (h.gen :: (u32 r.delivered ++ u32 r.lost ++ u32 r.charged ++
          u16 ((r.endRecord.map EndRecord.shortfall).getD 0))) s).mlc ∧
        u.presses = s.presses ∧ u.store = s.store ∧ u.au = s.au ∧ u.mu.plans = s.mu.plans ∧ u.mu.meters = s.mu.meters ∧
        (∀ a : Fin 256, a ≠ j.account → u.mu.accounts[a] = s.mu.accounts[a]) ∧
        ∀ i : Fin 64, i ≠ h.slot → u.jobs[i] = s.jobs[i])) ∧
    (∀ p : Fin 16, j.state = .active → j.stream = true → j.press = some p → s.mlc.mode ≠ .run →
      let refreshed : Vector Press 16 → Prop := fun presses =>
        (∀ q : Fin 16, q ≠ p → presses[q] = s.presses[q]) ∧
        presses[p] = { s.presses[p] with cond := presses[p].cond, unbindDeadline := presses[p].unbindDeadline }
      (∀ c, j.cursor = .next c (j.sheets + 1) → c < j.copies → ∃ presses, refreshed presses ∧
        exec request s = .next (answer
          { setJob { j with closed := true, cursor := .next (c + 1) 1 } with presses })) ∧
      (j.cursor = .next j.copies (j.sheets + 1) → s.presses[p].path ≠ [] → ∃ presses, refreshed presses ∧
        exec request s = .next (answer
          { setJob { j with closed := true, cursor := .allDispatched } with presses }))) ∧
    (j.stream = true → (j.state = .queued ∨ j.state = .active) → ∃ (u : State) (r : Job),
      exec request s = .next (answer u) ∧ u.jobs[h.slot].job = some r ∧ r.closed = true ∧ r.sheets = j.sheets)

/-- R13, R16, R40, R18, R33: JOB_CANCEL of an OPEN job that has delivered nothing ends it CANCELLED, frees its chain to
the tail of the free list, leaves its account alone and queues the JOB notice; of an ACTIVE job with sheets in its path it
makes the job ENDING and touches nothing else; of a QUEUED job, or an ACTIVE one with an empty path, in every mode, it
takes it off queue and press and ends it; of an ENDING or final job it is refused STATE. An open sheet is abandoned in
each accepted case. A QUEUED job is bound to no press, and an ACTIVE one stands in no queue. That the reprint list is
emptied in each accepted case is the model's reading (log entry 18), and so is that the feed condition of a press whose
job becomes ENDING waits for the next opportunity, so that its record stays as it was (log entry 15). -/
def Obligations.JobCancelEndsOrDrains : Prop :=
  ∀ (tag : Byte) (h : Handle) (j : Job) (s : State), s.takes = true → s.jobOf h = some j →
    (j.state = .opened → j.press = none → j.delivered = 0 →
      exec (.jobCancel tag h.bytes) s = .next (State.reply 0x14 tag .ok [6]
        (State.notice .job 2 h.slot.val (h.gen :: (u32 0 ++ u32 j.lost ++ u32 j.charged ++ u16 0))
          { s with
            jobs := s.jobs.set h.slot { gen := h.gen, job := some { j with
              state := .cancelled, closed := true, openSheet := none, reprint := [], endedAt := some s.tb,
              coming := none
              endRecord := some { reason := .cancelled, failedSheet := none, topUp := 0, shortfall := 0 } } }
            smm := { s.smm with
              free := s.smm.free ++ s.smm.slots[h.slot].chain
              owners := s.smm.owners.filter fun x => !s.smm.slots[h.slot].chain.contains x.1
              slots := s.smm.slots.set h.slot { chain := [], wpos := ⟨0, 0⟩, sheets := [] } } }))) ∧
    (∀ p : Fin 16, j.state = .active → j.press = some p → s.presses[p].path ≠ [] →
      exec (.jobCancel tag h.bytes) s = .next (State.reply 0x14 tag .ok [3]
        { s with
          jobs := s.jobs.set h.slot { gen := h.gen, job := some { j with
            state := .ending, closed := true, openSheet := none, reprint := [], cursor := .allDispatched,
            coming := some { reason := .cancelled, failedSheet := none } } }
          smm := s.smm.withoutSheet h.slot j.openSheet })) ∧
    ((j.state = .queued ∧ j.press = none) ∨ (j.state = .active ∧ s.pathCountOf j = 0 ∧ s.inNoQueue h) → ∃ (u : State) (r : Job),
      exec (.jobCancel tag h.bytes) s = .next (u.reply 0x14 tag .ok [6]) ∧
      u.jobs[h.slot] = { gen := h.gen, job := some r } ∧ r.state = .cancelled ∧ r.closed = true ∧
      r.openSheet = none ∧ r.press = none ∧ r.reprint = [] ∧ r.delivered = j.delivered ∧ r.lost = j.lost ∧
      r.endedAt = some s.tb ∧
      (∃ x, r.endRecord = some x ∧ x.reason = .cancelled ∧ x.failedSheet = none) ∧
      u.smm.free = s.smm.free ++ s.smm.slots[h.slot].chain ∧
      u.smm.slots[h.slot] = { chain := [], wpos := ⟨0, 0⟩, sheets := [] } ∧
      (∀ p : Fin 16, j.press = some p → u.presses[p].bound ≠ some h ∧
        (s.mlc.mode ≠ .run ∨ s.presses[p].held = true → u.presses[p] = { s.presses[p] with
          bound := none, cond := none, lastChoice := none, runStall := none, runUnbind := none, watch := none,
          stalledTag := none, unbindDeadline := none })) ∧
      (∀ p : Fin 16, j.press ≠ some p → u.presses[p] = s.presses[p]) ∧
      (j.state = .queued → ∀ e ∈ u.ru.queues[j.cls].entries, e.handle ≠ h)) ∧
    (j.state = .ending ∨ j.state = .done ∨ j.state = .failed ∨ j.state = .cancelled →
      exec (.jobCancel tag h.bytes) s = .next (s.reply 0x14 tag .state []))

/-- R21, R9, R53: JOB_RELEASE of a final job frees its slot and keeps the generation; JOB_REQUEUE of an ACTIVE job with an
empty path puts it at the head of its queue and leaves its press READY. On a press that is held, or outside RUN, or not
ONLINE, or that serves that class alone and may not be given the job, nothing is bound in its place; a READY press in RUN
that serves that class alone and may be given the job takes it again, with its JOB_MARK. The order of the press's event
before the others' is the model's (log entry 5); the fields of JOB_RELEASE's reply and their order are the model's choice
(log entry 10). -/
def Obligations.JobReleasedOrRequeued : Prop :=
  ∀ (tag : Byte) (h : Handle) (j : Job) (s : State), s.takes = true → s.jobOf h = some j →
    (j.state = .done ∨ j.state = .failed ∨ j.state = .cancelled →
      exec (.jobRelease tag h.bytes) s = .next (State.reply 0x17 tag .ok
        (opt EndRecord.bytes j.endRecord ++ u32 j.delivered ++ u32 j.faces ++ u32 j.lost ++ u32 j.charged)
        { s with jobs := s.jobs.set h.slot { gen := h.gen, job := none } })) ∧
    (∀ p : Fin 16, j.state = .active → j.press = some p → s.presses[p].path = [] →
      s.ru.queues[j.cls].entries.length < s.ru.queues[j.cls].capacity →
      (s.presses[p].held = true ∨ s.mlc.mode ≠ .run ∨ s.presses[p].link ≠ .online ∨
        (s.presses[p].profile.classes = [j.cls] ∧ s.presses[p].allows j = false)) →
      exec (.jobRequeue tag h.bytes) s = .next (State.reply 0x18 tag .ok []
        { s with
          jobs := s.jobs.set h.slot { gen := h.gen, job := some { j with state := .queued, press := none } }
          ru := { s.ru with
            queues := s.ru.queues.set j.cls { s.ru.queues[j.cls] with
              entries := { handle := h, urgent := j.urgent } :: s.ru.queues[j.cls].entries }
            reports := s.ru.reports ++ [j.cls] }
          presses := s.presses.set p { s.presses[p] with
            bound := none, cond := none, lastChoice := none, runStall := none, runUnbind := none, watch := none,
            stalledTag := none, unbindDeadline := none } })) ∧
    ∀ p : Fin 16, j.state = .active → j.press = some p → s.presses[p].path = [] →
      s.ru.queues[j.cls].entries.length < s.ru.queues[j.cls].capacity →
      s.presses[p].held = false → s.mlc.mode = .run → s.presses[p].link = .online →
      s.presses[p].profile.classes = [j.cls] → s.presses[p].allows j = true → ∃ u r m,
        exec (.jobRequeue tag h.bytes) s = .next (State.reply 0x18 tag .ok [] u) ∧
        u.jobs[h.slot] = { gen := h.gen, job := some r } ∧ r.state = .active ∧ r.press = some p ∧
        r.delivered = j.delivered ∧
        u.ru.queues[j.cls].entries = s.ru.queues[j.cls].entries.filter (fun x => decide (x.handle ≠ h)) ∧
        u.presses[p].bound = some h ∧ u.presses[p].runStall = some s.presses[p].profile.stallTime ∧
        u.presses[p].runUnbind = some s.presses[p].profile.unbindTime ∧
        u.presses[p].out = s.presses[p].out ++ .jobMark h j.copies j.label :: m ∧ m.length ≤ 1 ∧
        u.presses[p].path.length = m.length ∧ (∀ q : Fin 16, q ≠ p → u.presses[q] = s.presses[q]) ∧
        (∀ i : Fin 64, i ≠ h.slot → u.jobs[i] = s.jobs[i]) ∧ u.smm = s.smm ∧ u.store = s.store

/-- R2, R19, R41, R20: the seven requests that name a job check its handle first, and change nothing when it fails; what
JOB_QUERY and JOB_LIST, by state set and account, carry, which change nothing either. The layout of the bodies is the model's
reading of R211 (log entry 10). That the handle comes before every other LENGTH but that of a body too short for it is log
entry 36, and that bit 7 of the state set stands for nothing is log entry 32 (both DESIGN CHOICE). -/
def Obligations.JobQueriesReport : Prop :=
  ∀ (tag : Byte) (s : State), s.takes = true →
    (∀ x ∈ [(0x11, Instr.sheetBegin), (0x12, Instr.faceData), (0x13, Instr.jobClose), (0x14, Instr.jobCancel),
        (0x15, Instr.jobQuery), (0x17, Instr.jobRelease), (0x18, Instr.jobRequeue)],
      (∀ body, body.length < 2 → exec (x.2 tag body) s = .next (s.reply x.1 tag .length [])) ∧
      ∀ (a g : Byte) (l : List Byte),
        (64 ≤ a.toNat → exec (x.2 tag (a :: g :: l)) s = .next (s.reply x.1 tag .value [])) ∧
        ∀ i : Fin 64, i.val = a.toNat →
          (g = 0 ∨ g ≠ s.jobs[i].gen ∨ s.jobs[i].job = none →
            exec (x.2 tag (a :: g :: l)) s = .next (s.reply x.1 tag .none [])) ∧
          (g ≠ 0 → g = s.jobs[i].gen → s.jobs[i].job ≠ none → l = [] ∧ (x.1 = 0x11 ∨ x.1 = 0x12) ∨
              l ≠ [] ∧ x.1 ≠ 0x11 ∧ x.1 ≠ 0x12 →
            exec (x.2 tag (a :: g :: l)) s = .next (s.reply x.1 tag .length []))) ∧
    (∀ (h : Handle) (j : Job), s.jobOf h = some j →
      exec (.jobQuery tag h.bytes) s = .next (s.reply 0x15 tag .ok
        (h.bytes ++ u8 j.state.code ++ u16 j.account.val ++ u32 j.key.toNat ++ list8 (fun b => [b]) j.label ++
          u8 j.ink.code ++ u8 j.sides.code ++ u8 j.grade.val ++ u16 j.copies ++ flag j.urgent ++ u8 j.jam.code ++
          flag j.stream ++ u8 j.filter.val ++ u8 j.cls.val ++ u16 j.sheets ++ flag j.closed ++ opt u16 j.openSheet ++
          opt (fun p : Fin 16 => u8 p.val) j.press ++
          (match j.cursor with
            | .next c n => 1 :: (u16 c ++ u16 n)
            | .allDispatched => [0]) ++
          list8 CopySheet.bytes j.reprint ++ u32 j.delivered ++ u32 j.faces ++ u32 j.lost ++ u32 j.charged ++
          opt EndRecord.bytes j.endRecord ++ timeBytes j.openedAt ++ opt timeBytes j.endedAt ++
          u8 (match j.press with
            | some p => s.presses[p].path.length
            | none => 0) ++
          u16 s.smm.slots[h.slot].chain.length ++ u16 s.smm.slots[h.slot].wpos.pos ++
          u16 s.smm.slots[h.slot].wpos.off ++
          opt (fun r : SheetRecord => u32 r.received ++ u32 r.total) (j.openSheet.bind (s.smm.sheet? h.slot))))) ∧
    ∀ set : Byte,
      (∀ account : Option (Fin 256),
        let selects : Job → Bool := fun j =>
          decide (set.toNat % 128 = 0 ∨ set.getLsbD j.state.code = true) &&
            decide (account = none ∨ account = some j.account)
        exec (.jobList tag (set :: opt (fun a : Fin 256 => u16 a.val) account)) s = .next (s.reply 0x16 tag .ok
          (list8 (fun x : Fin 64 × Job => Handle.bytes { slot := x.1, gen := s.jobs[x.1].gen } ++ u8 x.2.state.code ++
              u16 x.2.account.val ++ u8 x.2.cls.val ++ opt (fun p : Fin 16 => u8 p.val) x.2.press)
            ((List.finRange 64).filterMap fun i => (s.jobs[i].job.filter selects).map fun j => (i, j))))) ∧
      ∀ n, 256 ≤ n → n < 65536 →
        exec (.jobList tag (set :: 1 :: u16 n)) s = .next (s.reply 0x16 tag .value [])

/-! ### Routing (chapter 3) -/

/-- R45, R46, R47: FILTER_SET writes a disabled filter whole, its compare length clamped to its pattern, and leaves it
disabled; FILTER_ENABLE sets the enabled flag and answers the state before; FILTER_QUERY reports and changes nothing.
The coding of enabled as 0, that the reply of FILTER_SET always carries the clamped flag, also when nothing was clamped, and
that a yes in a reply is a 1 are the model's choices (all log entry 10, DESIGN CHOICE). -/
def Obligations.FiltersWrittenAndEnabled : Prop :=
  ∀ (tag : Byte) (i : Fin 32) (s : State), s.takes = true →
    (∀ (value mask : Key) (ink : InkReq) (sides : SidesReq) (pattern : List Byte) (compare : Byte) (k : Fin 8),
      s.ru.filters[i].enabled = false → pattern.length ≤ 8 →
      exec (.filterSet tag (u8 i.val ++ u32 value.toNat ++ u32 mask.toNat ++ u8 ink.code ++ u8 sides.code ++
          list8 (fun b => [b]) pattern ++ [compare] ++ u8 k.val)) s =
        .next (State.reply 0x20 tag .ok
          (u8 i.val ++ u8 (min compare.toNat pattern.length) ++ flag (decide (pattern.length < compare.toNat)))
          { s with ru := { s.ru with
              filters := s.ru.filters.set i { enabled := false, value, mask, ink, sides, pattern,
                                              compare := min compare.toNat pattern.length, cls := k } } })) ∧
    (∀ on : Bool, exec (.filterEnable tag (u8 i.val ++ u8 (if on then 0 else 1))) s =
      .next (State.reply 0x21 tag .ok (u8 (if s.ru.filters[i].enabled then 0 else 1))
        { s with ru := { s.ru with filters := s.ru.filters.set i { s.ru.filters[i] with enabled := on } } })) ∧
    exec (.filterQuery tag (u8 i.val)) s = .next (s.reply 0x22 tag .ok
      (flag s.ru.filters[i].enabled ++ u32 s.ru.filters[i].value.toNat ++ u32 s.ru.filters[i].mask.toNat ++
        u8 s.ru.filters[i].ink.code ++ u8 s.ru.filters[i].sides.code ++ list8 (fun b => [b]) s.ru.filters[i].pattern ++
        u8 s.ru.filters[i].compare ++ u8 s.ru.filters[i].cls.val))

/-- R57, R58, R56: CLASS_SET sets a capacity of 1 to 64 not below the count and answers capacity, count and flags;
CLASS_QUERY reports the queue from head to tail and changes nothing. The count byte of its job list, beside the count before
the flags, is the model's layout (log entry 10, DESIGN CHOICE). -/
def Obligations.ClassesSizedAndReported : Prop :=
  ∀ (tag : Byte) (k : Fin 8) (s : State), s.takes = true →
    let flags : Nat → Nat → List Byte := fun count capacity =>
      u8 ((if 1 ≤ count then 1 else 0) + (if (capacity + 1) / 2 ≤ count then 2 else 0) +
        if count = capacity then 4 else 0)
    (∀ n : Nat, 1 ≤ n → n ≤ 64 → s.ru.queues[k].entries.length ≤ n →
      exec (.classSet tag (u8 k.val ++ u8 n)) s = .next (State.reply 0x23 tag .ok
        (u8 n ++ u8 s.ru.queues[k].entries.length ++ flags s.ru.queues[k].entries.length n)
        { s with ru := { s.ru with queues := s.ru.queues.set k { s.ru.queues[k] with capacity := n } } })) ∧
    exec (.classQuery tag (u8 k.val)) s = .next (s.reply 0x24 tag .ok
      (u8 s.ru.queues[k].capacity ++ u8 s.ru.queues[k].entries.length ++
        flags s.ru.queues[k].entries.length s.ru.queues[k].capacity ++
        list8 (fun e : QueueEntry => e.handle.bytes ++ flag e.urgent ++ u16 (s.accountOf e.handle))
          s.ru.queues[k].entries))

/-! ### Press requests (chapters 4 and 5) -/

/-- R63, R64, R62, R189: an accepted PRESS_SET writes the profile and answers it. On a DISABLED press nothing else
changes; on a READY one with no path entries the effective capabilities follow, a zone that changes derives the patterns
of both zones afresh, and, where the press may not bind and no silence is found, nothing else changes. That the reply's yes
is a 1 is the model's choice (log entry 10). -/
def Obligations.PressSetWritesProfile : Prop :=
  ∀ (tag : Byte) (p : Fin 16) (f : Profile) (s : State), s.takes = true →
    1 ≤ f.classes.length → f.classes.length ≤ 4 → f.classes.Nodup → f.caps.grades ≠ 0 → 100 ≤ f.linkTimeout →
    f.linkTimeout ≤ 10000 → 1 ≤ f.stallTime → f.stallTime ≤ 120 → f.unbindTime ≤ 3600 → 1 ≤ f.checkpoint →
    f.checkpoint ≤ 1000 →
    let pr := s.presses[p]
    let body := u8 f.classes.length ++ (f.classes.flatMap fun c => u8 c.val) ++ flag f.caps.color ++
      flag f.caps.duplex ++ [f.caps.grades] ++ u8 f.zone.val ++ u16 f.linkTimeout ++ u8 f.stallTime ++
      u16 f.unbindTime ++ u16 f.checkpoint
    let request : Instr := .pressSet tag (u8 p.val ++ body)
    (pr.link = .disabled → exec request s = .next (State.reply 0x28 tag .ok body
      { s with presses := s.presses.set p { pr with profile := f } })) ∧
    (pr.link = .awaiting ∨ (pr.link = .online ∧ (pr.bound ≠ none ∨ pr.path ≠ [])) →
      exec request s = .next (s.reply 0x28 tag .state [])) ∧
    (pr.link = .online → pr.bound = none → pr.path = [] →
      (∃ u : State, exec request s = .next (u.reply 0x28 tag .ok body) ∧ u.presses[p].profile = f ∧
        u.presses[p].effective = pr.reported.map fun r =>
          { color := f.caps.color && r.caps.color, duplex := f.caps.duplex && r.caps.duplex,
            grades := f.caps.grades &&& r.caps.grades }) ∧
      ((pr.held = true ∨ s.mlc.mode ≠ .run) →
        (∀ t, pr.lastFrame = some t → reached s.tb (t + ms f.linkTimeout) = true → s.silent p = true) →
        ∃ presses zones, exec request s = .next (State.reply 0x28 tag .ok body { s with presses, zones }) ∧
          presses = s.presses.set p { pr with
            profile := f
            effective := pr.reported.map fun r =>
              { color := f.caps.color && r.caps.color, duplex := f.caps.duplex && r.caps.duplex,
                grades := f.caps.grades &&& r.caps.grades } } ∧
          ∀ z : Fin 4,
            if pr.profile.zone ≠ f.zone ∧ (z = pr.profile.zone ∨ z = f.zone) then
              zones[z] = (s.zones[z]).derive s.tb (patternOf (State.zoneEntries { s with presses } z))
            else zones[z] = s.zones[z]))

/-- R66, R68, R183: PRESS_ENABLE of a press that is not ONLINE sends a PROBE, counts it, starts its timer and leaves the
press AWAITING. PRESS_DISABLE of a press with no path entries empties its alert table without notices, derives its zone's
pattern, marks it pending when it was ONLINE, returns its job to its queue, and leaves it DISABLED. -/
def Obligations.PressesEnabledAndDisabled : Prop :=
  ∀ (tag : Byte) (p : Fin 16) (s : State), s.takes = true →
    let pr := s.presses[p]
    let off : Press := { pr with
      link := .disabled, reported := none, effective := none, applied := none, lastFrame := none, probeDeadline := none,
      bound := none, held := false, cond := none, lastChoice := none, runStall := none, runUnbind := none,
      watch := none, stalledTag := none, unbindDeadline := none }
    let request : Instr := .pressDisable tag (u8 p.val)
    (pr.link ≠ .online → exec (.pressEnable tag (u8 p.val)) s = .next
      (State.reply 0x29 tag .ok (u8 1 ++ u8 (min 255 (pr.probes + 1)))
        { s with presses := s.presses.set p { pr with
            link := .awaiting, out := pr.out ++ [.probe], probes := min 255 (pr.probes + 1),
            probeDeadline := some (s.tb + ms pr.profile.linkTimeout) } })) ∧
    (pr.link = .online → exec (.pressEnable tag (u8 p.val)) s = .next (s.reply 0x29 tag .state [])) ∧
    (pr.link = .disabled → exec request s = .next (s.reply 0x2A tag .ok [0])) ∧
    (pr.link ≠ .disabled → pr.path ≠ [] → exec request s = .next (s.reply 0x2A tag .state [])) ∧
    (pr.link ≠ .disabled → pr.path = [] → pr.bound = none →
      let au : Au := { s.au with tables := s.au.tables.set p emptyTable }
      let z := pr.profile.zone
      exec request s = .next (State.reply 0x2A tag .ok [0]
        { s with
          presses := s.presses.set p off
          au := au
          zones := s.zones.set z ((s.zones[z]).derive s.tb (patternOf (State.zoneEntries { s with au } z)))
          store := if pr.link = .online then
              { s.store with marks := s.store.marks.set p { s.store.marks[p] with pending := true } }
            else s.store })) ∧
    ∀ (h : Handle) (j : Job), pr.link ≠ .disabled → pr.path = [] → pr.bound = some h → s.jobOf h = some j →
      (s.ru.queues[j.cls].entries.length = s.ru.queues[j.cls].capacity →
        exec request s = .next (s.reply 0x2A tag .full [])) ∧
      (s.ru.queues[j.cls].entries.length < s.ru.queues[j.cls].capacity →
        ∃ u : State, exec request s = .next (u.reply 0x2A tag .ok (1 :: h.bytes)) ∧
          u.jobs = s.jobs.set h.slot { gen := h.gen, job := some { j with state := .queued, press := none } } ∧
          u.ru = { s.ru with
            queues := s.ru.queues.set j.cls { s.ru.queues[j.cls] with
              entries := { handle := h, urgent := j.urgent } :: s.ru.queues[j.cls].entries }
            reports := s.ru.reports ++ [j.cls] } ∧
          u.presses = s.presses.set p off ∧ u.au = { s.au with tables := s.au.tables.set p emptyTable } ∧
          (∀ q : Fin 16, u.store.marks[q] =
            if q = p ∧ pr.link = .online then { s.store.marks[q] with pending := true } else s.store.marks[q]) ∧
          u.mlc = s.mlc ∧ u.smm = s.smm ∧ u.mu = s.mu ∧ u.tb = s.tb)

/-- R108: PRESS_WRITEOFF of an AWAITING press sends PURGE and loses nothing; of an ONLINE press on which LINK_SILENT is
active it loses every path entry, counting each as spoiled and releasing its charge, and sends PURGE; any other press is
refused STATE. The clause on the held amounts is for a press that is held and whose entries are of jobs bound to it. What
the losses do to their job is R10's (Job.afterLoss), and a job that they leave in ENDING ends (R14). In QUIESCING the part
drains when no path holds an entry (R111, R204); that its notice is the last of the event is log entry 14 (DEDUCED), and
its object number log entry 37 (DESIGN CHOICE). -/
def Obligations.PressWriteoffLosesAll : Prop :=
  ∀ (tag : Byte) (p : Fin 16) (s : State), s.takes = true →
    let pr := s.presses[p]
    let request : Instr := .pressWriteoff tag (u8 p.val)
    (pr.link = .awaiting → exec request s = .next (State.reply 0x2C tag .ok [0]
      { s with presses := s.presses.set p { pr with out := pr.out ++ [.purge] } })) ∧
    (pr.link = .disabled ∨ (pr.link = .online ∧ s.silent p = false) →
      exec request s = .next (s.reply 0x2C tag .state [])) ∧
    (pr.link = .online → s.silent p = true → s.mu.meters[p].live.spoiled ≤ 999999999 → ∃ u : State,
      exec request s = .next (u.reply 0x2C tag .ok (u8 pr.path.length)) ∧
      u.mu.meters[p].live = { s.mu.meters[p].live with
        spoiled := min 999999999 (s.mu.meters[p].live.spoiled + pr.path.length) }) ∧
    (pr.link = .online → s.silent p = true → s.pathsSound → pr.held = true →
      (∀ e ∈ pr.path, ∀ j, s.jobOf e.job = some j → j.press = some p) → ∃ u : State,
        exec request s = .next (u.reply 0x2C tag .ok (u8 pr.path.length)) ∧ u.presses[p].path = [] ∧
        u.presses[p].held = true ∧
        (∃ l, u.presses[p].out = pr.out ++ l ++ [.purge]) ∧
        (∀ a : Fin 256, u.mu.accounts[a].held = s.mu.accounts[a].held -
          ((pr.path.filter fun e => decide (e.account = a)).map fun e => (e.charge : Int)).sum) ∧
        (∀ q : Fin 16, q ≠ p → u.presses[q] = s.presses[q] ∧ u.mu.meters[q] = s.mu.meters[q]) ∧
        u.ru = s.ru ∧ u.mu.plans = s.mu.plans ∧ u.tb = s.tb ∧ s.drainTells u p [] ∧
        ∀ (h : Handle) (j : Job), pr.path ≠ [] → (∀ e ∈ pr.path, e.job = h) → s.jobOf h = some j →
          (j.state = .active ∨ j.state = .ending) →
          s.lossesTell u h j (pr.path.map PathEntry.pair) True True)

/-- R69: what PRESS_QUERY carries. It changes nothing. The layout of the body is the model's reading of R211 (log
entry 10). -/
def Obligations.PressQueryReports : Prop :=
  ∀ (tag : Byte) (p : Fin 16) (s : State), s.takes = true →
    let pr := s.presses[p]
    let caps : Caps → List Byte := fun c => flag c.color ++ flag c.duplex ++ [c.grades]
    exec (.pressQuery tag (u8 p.val)) s = .next (s.reply 0x2B tag .ok
      (list8 (fun c : Fin 8 => u8 c.val) pr.profile.classes ++ caps pr.profile.caps ++ u8 pr.profile.zone.val ++
        u16 pr.profile.linkTimeout ++ u8 pr.profile.stallTime ++ u16 pr.profile.unbindTime ++
        u16 pr.profile.checkpoint ++ u8 pr.link.code ++ u8 pr.stateCode ++
        opt (fun r : Reported => r.model.toList) pr.reported ++ opt (fun r : Reported => r.serial.toList) pr.reported ++
        opt (fun r : Reported => caps r.caps) pr.reported ++ opt caps pr.effective ++
        opt (fun r : Reported => [r.announced]) pr.reported ++ opt u8 pr.applied ++
        opt (fun t : Time => timeBytes (s.tb - t)) pr.lastFrame ++ u8 pr.probes ++ u16 pr.badChecks ++
        u16 pr.tagCounter.toNat ++ flag pr.held ++ opt (fun c : FeedCond => u8 c.code) pr.cond ++
        opt Handle.bytes pr.bound ++
        list8 (fun e : PathEntry => u16 e.tag.toNat ++ u16 e.pair.copy ++ u16 e.pair.sheet ++ u8 e.state.code ++
          u24 e.charge ++ timeBytes e.dispatched ++ opt timeBytes e.takenAt) pr.path))

/-! ### Plans and charges (chapter 6) -/

/-- R115, R116, R117: PLAN_SET of sound values writes every field of the plan, each discount rate above 500 as 500, and
answers the rates with their clamped flags; PLAN_QUERY carries the plan and the number of accounts that name it. Three bytes
for the clamped flags, and no plan number in PLAN_QUERY's reply, are the model's layout (log entry 10, DESIGN CHOICE). -/
def Obligations.PlansWrittenAndReported : Prop :=
  ∀ (tag : Byte) (i : Fin 8) (s : State), s.takes = true →
    let bytes : Plan → List Byte := fun pl =>
      (pl.rows.toList.flatMap fun r => u16 r.paper ++ u16 r.mono ++ u16 r.base ++ u16 r.rate) ++ u32 pl.t1 ++
        u32 pl.t2 ++ u32 pl.t3 ++ u16 pl.d1 ++ u16 pl.d2 ++ u16 pl.d3 ++ u16 pl.minimum
    (∀ pl : Plan,
      (∀ g : Fin 8, pl.rows[g].paper < 65536 ∧ pl.rows[g].mono < 65536 ∧ pl.rows[g].base < 65536 ∧
        pl.rows[g].rate ≤ 2000) →
      pl.t1 < 2 ^ 32 → pl.t2 < 2 ^ 32 → pl.t3 < 2 ^ 32 → pl.d1 < 65536 → pl.d2 < 65536 → pl.d3 < 65536 →
      pl.minimum < 65536 → (pl.t1 ≠ 0 → pl.t2 ≠ 0 → pl.t1 < pl.t2) → (pl.t1 ≠ 0 → pl.t3 ≠ 0 → pl.t1 < pl.t3) →
      (pl.t2 ≠ 0 → pl.t3 ≠ 0 → pl.t2 < pl.t3) →
      exec (.planSet tag (u8 i.val ++ bytes pl)) s = .next (State.reply 0x30 tag .ok
        (u8 i.val ++ u16 (min 500 pl.d1) ++ u16 (min 500 pl.d2) ++ u16 (min 500 pl.d3) ++
          flag (decide (500 < pl.d1)) ++ flag (decide (500 < pl.d2)) ++ flag (decide (500 < pl.d3)))
        { s with mu := { s.mu with
            plans := s.mu.plans.set i { pl with d1 := min 500 pl.d1, d2 := min 500 pl.d2, d3 := min 500 pl.d3 } } })) ∧
    exec (.planQuery tag (u8 i.val)) s = .next (s.reply 0x31 tag .ok
      (bytes s.mu.plans[i] ++ u16 (s.mu.accounts.toList.filter fun a =>
        decide (a.state ≠ .absent) && decide (a.plan = i)).length))

/-- R119 to R122: the net charge is the gross price less the discount of the largest tier whose threshold is not 0 and is
reached, rounded down; a face price never exceeds 265,535, the gross price never exceeds 596,605, or 331,070 for a sheet of
one face, and a discount never takes more than 298,302 or half of the gross price. -/
def Obligations.SheetChargeFollowsStages : Prop :=
  ∀ (pl : Plan) (g : Fin 8) (f1 : PricedFace) (f2 : Option PricedFace) (q : Nat),
    let row := pl.rows[g]
    let price : PricedFace → Nat := fun f => if f.1 = .mono then row.mono else row.base + row.rate * f.2
    let gross := row.paper + price f1 + match f2 with
      | some f => price f
      | none => 0
    let reaches : Nat → Prop := fun t => t ≠ 0 ∧ t ≤ q
    (reaches pl.t3 → pl.charge g f1 f2 q = gross - gross * pl.d3 / 1000) ∧
    (¬ reaches pl.t3 → reaches pl.t2 → pl.charge g f1 f2 q = gross - gross * pl.d2 / 1000) ∧
    (¬ reaches pl.t3 → ¬ reaches pl.t2 → reaches pl.t1 → pl.charge g f1 f2 q = gross - gross * pl.d1 / 1000) ∧
    (¬ reaches pl.t3 → ¬ reaches pl.t2 → ¬ reaches pl.t1 → pl.charge g f1 f2 q = gross) ∧
    (row.paper ≤ 65535 → row.mono ≤ 65535 → row.base ≤ 65535 → row.rate ≤ 2000 → f1.2 ≤ 100 →
      (∀ f, f2 = some f → f.2 ≤ 100) → pl.d1 ≤ 500 → pl.d2 ≤ 500 → pl.d3 ≤ 500 →
      price f1 ≤ 265535 ∧ (f2 = none → gross ≤ 331070) ∧ gross ≤ 596605 ∧ pl.charge g f1 f2 q ≤ gross ∧
        gross - pl.charge g f1 f2 q ≤ 298302 ∧ gross ≤ 2 * pl.charge g f1 f2 q)

/-- R125, R126: what CHARGE_QUOTE carries for a plan and a period face count, and for an account that is not ABSENT.
It reserves nothing and changes nothing. The layout of the body is the model's reading of R211 (log entry 10). -/
def Obligations.ChargeQuoteReports : Prop :=
  ∀ (tag : Byte) (g : Fin 8) (ink1 ink2 : Ink) (cov1 cov2 : Byte) (two : Bool) (s : State), s.takes = true →
    let applied : Ink → Byte → PricedFace := fun ink cov => (ink, if ink = .color then min 100 cov.toNat else 0)
    let f1 := applied ink1 cov1
    let f2 := applied ink2 cov2
    let second : Option PricedFace := if two then some f2 else none
    let shown : Ink → Byte → List Byte := fun ink cov =>
      u8 (applied ink cov).2 ++ if ink = .color then flag (decide (100 < cov.toNat)) else []
    let figures : Fin 8 → Plan → Nat → List Byte := fun i pl q =>
      let row := pl.rows[g]
      let gross := grossPrice row f1 second
      let rate := pl.rateOf (pl.tier q)
      u8 i.val ++ u32 q ++ u8 (if two then 2 else 1) ++ shown ink1 cov1 ++ (if two then shown ink2 cov2 else []) ++
        u8 (if two then 2 else 1) ++ u24 (facePrice row f1.1 f1.2) ++
        (if two then u24 (facePrice row f2.1 f2.2) else []) ++ u24 gross ++ u8 (pl.tier q) ++ u16 rate ++
        u24 (gross * rate / 1000) ++ u24 (gross - gross * rate / 1000)
    let rest := u8 g.val ++ u8 (if two then 2 else 1) ++ u8 ink1.code ++ [cov1] ++
      (if two then u8 ink2.code ++ [cov2] else [])
    (∀ (i : Fin 8) (q : Nat), q < 2 ^ 32 →
      exec (.chargeQuote tag (u8 1 ++ u8 i.val ++ u32 q ++ rest)) s =
        .next (s.reply 0x38 tag .ok (figures i s.mu.plans[i] q))) ∧
    ∀ a : Fin 256, s.mu.accounts[a].state ≠ .absent →
      let acc := s.mu.accounts[a]
      let pl := s.mu.plans[acc.plan]
      let net := pl.charge g f1 second acc.faces
      exec (.chargeQuote tag (u8 0 ++ u16 a.val ++ rest)) s = .next (s.reply 0x38 tag .ok
        (figures acc.plan pl acc.faces ++ i32 (acc.balance - acc.held + acc.limit) ++
          flag (decide (acc.state = .opened ∧ (net : Int) ≤ acc.balance - acc.held + acc.limit))))

/-! ### Accounts (chapter 7) -/

/-- R130, R135: ACCOUNT_OPEN of an ABSENT account writes a record that is OPEN with nothing held and every counter at 0,
unless its balance would begin below -L, which is refused FUNDS; ACCOUNT_CLOSE of an account with no live job and nothing
held answers its record and leaves it ABSENT with every field at 0. Nothing else changes. -/
def Obligations.AccountsOpenedAndClosed : Prop :=
  ∀ (tag : Byte) (a : Fin 256) (s : State), s.takes = true →
    let acc := s.mu.accounts[a]
    (∀ (plan : Fin 8) (limit balance : Int), 0 ≤ limit → limit ≤ 10000000 → -10000000 ≤ balance →
      balance ≤ 2000000000 →
      let request : Instr := .accountOpen tag (u16 a.val ++ u8 plan.val ++ u24 limit.toNat ++ i32 balance)
      (acc.state ≠ .absent → exec request s = .next (s.reply 0x32 tag .state [])) ∧
      (acc.state = .absent → balance < -limit → exec request s = .next (s.reply 0x32 tag .funds [])) ∧
      (acc.state = .absent → -limit ≤ balance → exec request s = .next (State.reply 0x32 tag .ok
        (u8 1 ++ u8 plan.val ++ u24 limit.toNat ++ i32 balance ++ u32 0 ++ u32 0 ++ u32 0 ++ u32 0 ++ u32 0 ++
          i32 (balance + limit))
        { s with mu := { s.mu with
            accounts := s.mu.accounts.set a
              { state := .opened, plan, limit, balance, held := 0, faces := 0, sheets := 0, charged := 0,
                shortfall := 0 } } }))) ∧
    (acc.state ≠ .absent → s.liveJobsOf a = [] → acc.held ≤ 0 →
      exec (.accountClose tag (u16 a.val)) s = .next (State.reply 0x37 tag .ok
        (u8 acc.state.code ++ u8 acc.plan.val ++ u24 acc.limit.toNat ++ i32 acc.balance ++ u32 acc.held.toNat ++
          u32 acc.faces ++ u32 acc.sheets ++ u32 acc.charged ++ u32 acc.shortfall)
        { s with mu := { s.mu with
            accounts := s.mu.accounts.set a
              { state := .absent, plan := 0, limit := 0, balance := 0, held := 0, faces := 0, sheets := 0,
                charged := 0, shortfall := 0 } } })) ∧
    (acc.state ≠ .absent → (s.liveJobsOf a ≠ [] ∨ 0 < acc.held) →
      exec (.accountClose tag (u16 a.val)) s = .next (s.reply 0x37 tag .state [])) ∧
    (acc.state = .absent → exec (.accountClose tag (u16 a.val)) s = .next (s.reply 0x37 tag .none []))

/-- R131, R132, R139: ACCOUNT_SET and ACCOUNT_ADJUST keep B - H at or above -L, refusing FUNDS otherwise; a credit stops at
the largest balance. What raises the availability, or opens a SUSPENDED account, is reported to every press that waits for
funds on the account. Nothing else changes. That the clamped flag's yes is a 1 is the model's choice (log entry 10). -/
def Obligations.AccountsSetAndAdjusted : Prop :=
  ∀ (tag : Byte) (a : Fin 256) (s : State), s.takes = true → s.mu.accounts[a].state ≠ .absent →
    let acc := s.mu.accounts[a]
    let rises : List Rise := (s.waitingOn a).map fun p => { press := p, account := a }
    (∀ (plan : Fin 8) (limit : Int) (suspend : Bool), 0 ≤ limit → limit ≤ 10000000 →
      let request : Instr := .accountSet tag (u16 a.val ++ u8 plan.val ++ u24 limit.toNat ++ flag suspend)
      let new : Account := { acc with plan, limit, state := if suspend then .suspended else .opened }
      (acc.balance - acc.held < -limit → exec request s = .next (s.reply 0x33 tag .funds [])) ∧
      (-limit ≤ acc.balance - acc.held → exec request s = .next (State.reply 0x33 tag .ok
        (u8 new.state.code ++ u8 plan.val ++ u24 limit.toNat ++ i32 acc.balance ++ u32 acc.held.toNat ++
          u32 acc.faces ++ u32 acc.sheets ++ u32 acc.charged ++ u32 acc.shortfall ++
          i32 (acc.balance - acc.held + limit))
        { s with mu := { s.mu with
            accounts := s.mu.accounts.set a new
            rises := s.mu.rises ++
              if acc.limit < limit ∨ (acc.state = .suspended ∧ suspend = false) then rises else [] } }))) ∧
    ∀ delta : Int, -2147483648 ≤ delta → delta ≤ 2147483647 →
      let request : Instr := .accountAdjust tag (u16 a.val ++ i32 delta)
      let applied := if 0 < delta then min delta (max 0 (2000000000 - acc.balance)) else delta
      (delta < 0 → acc.balance + delta - acc.held < -acc.limit →
        exec request s = .next (s.reply 0x34 tag .funds [])) ∧
      (0 ≤ delta ∨ -acc.limit ≤ acc.balance + delta - acc.held →
        exec request s = .next (State.reply 0x34 tag .ok
          (i32 applied ++ flag (decide (applied ≠ delta)) ++ i32 (acc.balance + applied) ++
            i32 (acc.balance + applied - acc.held + acc.limit))
          { s with mu := { s.mu with
              accounts := s.mu.accounts.set a { acc with balance := acc.balance + applied }
              rises := s.mu.rises ++ if 0 < applied then rises else [] } }))

/-- R133, R134: what ACCOUNT_QUERY carries, changing nothing; ACCOUNT_PERIOD answers the period counters and the
shortfall total and puts the period counters to 0. Nothing else changes. The layout of the body is the model's reading
of R211 (log entry 10). -/
def Obligations.AccountsQueriedAndPeriodEnded : Prop :=
  ∀ (tag : Byte) (a : Fin 256) (s : State), s.takes = true →
    let acc := s.mu.accounts[a]
    (acc.state = .absent → exec (.accountQuery tag (u16 a.val)) s = .next (s.reply 0x35 tag .ok [0]) ∧
      exec (.accountPeriod tag (u16 a.val)) s = .next (s.reply 0x36 tag .none [])) ∧
    (acc.state ≠ .absent →
      exec (.accountQuery tag (u16 a.val)) s = .next (s.reply 0x35 tag .ok
        (u8 acc.state.code ++ u8 acc.plan.val ++ u24 acc.limit.toNat ++ i32 acc.balance ++ u32 acc.held.toNat ++
          u32 acc.faces ++ u32 acc.sheets ++ u32 acc.charged ++ u32 acc.shortfall ++
          i32 (acc.balance - acc.held + acc.limit) ++
          u8 (s.jobs.toList.filter fun sl => match sl.job with
            | some j => decide (j.account = a) && !j.state.final
            | none => false).length ++
          u8 (s.presses.toList.flatMap fun pr => pr.path.filter fun e => decide (e.account = a)).length ++
          list8 (fun p : Fin 16 => u8 p.val) (s.waitingOn a))) ∧
      exec (.accountPeriod tag (u16 a.val)) s = .next (State.reply 0x36 tag .ok
        (u32 acc.faces ++ u32 acc.sheets ++ u32 acc.charged ++ u32 acc.shortfall)
        { s with mu := { s.mu with
            accounts := s.mu.accounts.set a { acc with faces := 0, sheets := 0, charged := 0 } } }))

/-- R141, R142: the job minimum takes what is missing to it from the account, as far as the availability goes, and counts
the rest as shortfall; the availability it leaves is never below 0. Nothing else of the part changes. -/
def Obligations.JobMinimumStaysInCredit : Prop :=
  ∀ (a : Fin 256) (charged : Nat) (s : State), 0 ≤ s.mu.accounts[a].availability →
    let acc := s.mu.accounts[a]
    let missing := s.mu.plans[acc.plan].minimum - charged
    let top := min missing (acc.balance - acc.held + acc.limit).toNat
    s.applyMinimum a charged = ((top, missing - top),
      { s with mu := { s.mu with
          accounts := s.mu.accounts.set a { acc with
            balance := acc.balance - top, charged := min 4294967295 (acc.charged + top)
            shortfall := min 4294967295 (acc.shortfall + (missing - top)) } } }) ∧
    0 ≤ (s.applyMinimum a charged).2.mu.accounts[a].availability

/-! ### The meter store's requests (chapter 8) -/

/-- R149, R159, R160: METER_READ carries live counters, since-checkpoint count, marks and the newest stored record of
each press named; METER_SAVE marks the presses named pending and owes a save, refused STATE in FAILED; STORE_QUERY
carries the whole store state. An empty press set names all 16. The layout of the bodies is the model's reading of
R211 (log entry 10). -/
def Obligations.MetersReadSavedStoreReported : Prop :=
  ∀ (tag : Byte) (n : Nat) (s : State), s.takes = true → n < 65536 →
    let named : Fin 16 → Bool := fun p => decide (n = 0) || n.testBit p.val
    let set : (Fin 16 → Bool) → List Byte := fun f =>
      u16 (((List.finRange 16).filter fun p => f p).map fun p => 2 ^ p.val).sum
    exec (.meterRead tag (u16 n)) s = .next (s.reply 0x39 tag .ok
      (list8 (fun p : Fin 16 =>
          u32 s.mu.meters[p].live.mono ++ u32 s.mu.meters[p].live.color ++ u32 s.mu.meters[p].live.delivered ++
            u32 s.mu.meters[p].live.spoiled ++ u16 s.mu.meters[p].since ++ flag s.store.marks[p].pending ++
            flag s.store.marks[p].forced ++
            opt (fun x : Newest => u32 x.sequence ++ (countersAt (slotContent s.store.flash x.sector x.slot)).bytes)
              s.store.newest[p])
        ((List.finRange 16).filter named))) ∧
    (s.store.state = .failed → exec (.meterSave tag (u16 n)) s = .next (s.reply 0x40 tag .state [])) ∧
    (s.store.state ≠ .failed → ∃ marks : Vector Mark 16,
      (∀ p : Fin 16, marks[p] = { s.store.marks[p] with pending := s.store.marks[p].pending || named p }) ∧
      exec (.meterSave tag (u16 n)) s = .next
        (State.reply 0x40 tag .ok (set fun p => marks[p].pending)
          { s with store := { s.store with marks, saveOwed := true } })) ∧
    exec (.storeQuery tag []) s = .next (s.reply 0x41 tag .ok
      (u8 s.store.state.code ++
        opt (fun r : FailReason => match r with
          | .erase k => u8 0 ++ 1 :: u8 k.val
          | .worn => u8 1 ++ [0]) s.store.failed ++
        ((List.finRange 4).flatMap fun k =>
          u8 (if k = s.store.active then 0 else if s.store.spare = some k then 1 else 2)) ++
        opt (fun k : Fin 4 => u8 k.val) s.store.victim ++ u8 s.store.attempts ++ u16 s.store.writeSlot ++
        u32 s.store.nextSeq ++
        (s.store.counts.toList.flatMap fun c => u16 c.free ++ u16 c.void ++ u16 c.record ++ u16 c.torn) ++
        (set fun p => s.store.marks[p].pending) ++ (set fun p => s.store.marks[p].forced) ++ flag s.store.saveOwed ++
        s.store.newest.toList.flatMap
          (opt fun x : Newest => u8 x.sector.val ++ u8 x.slot ++ u32 x.sequence)))

/-! ### Alert and zone requests (chapters 9 and 10) -/

/-- R168, R181: ALERT_MODE_SET writes a kind's mode and retry delay of 1 to 600 seconds, REPORT and IGNORE of JAM and
LINK_SILENT written as RETRY, and changes no entry; ALERT_LIST carries a press's entries in kind-code order, or the
summaries and the response-mode table when no press is named. The count before the entries and the three-byte time left are
the model's layout (log entry 10), and the time left is deadline minus TB modulo 2^32 (log entry 9). -/
def Obligations.AlertModesSetAndListed : Prop :=
  ∀ (tag : Byte) (s : State), s.takes = true →
    (∀ (k : AlertKind) (m : AlertMode) (n : Nat), 1 ≤ n → n ≤ 600 →
      let clamped : Prop := (k = .jam ∨ k = .linkSilent) ∧ (m = .report ∨ m = .ignore)
      let done : AlertMode → Bool → Host.Outcome State Fault Refusal := fun mode was =>
        .next (State.reply 0x48 tag .ok (u8 k.code.val ++ u8 mode.code ++ u16 n ++ flag was)
          { s with au := { s.au with modes := s.au.modes.set k.code ⟨mode, n⟩ } })
      let request : Instr := .alertModeSet tag (u8 k.code.val ++ u8 m.code ++ u16 n)
      (clamped → exec request s = done .retry true) ∧ (¬ clamped → exec request s = done m false)) ∧
    (∀ p : Fin 16, exec (.alertList tag (1 :: u8 p.val)) s = .next (s.reply 0x49 tag .ok
      (flag s.presses[p].held ++
        list8 (fun x : AlertKind × AlertEntry =>
            u8 x.1.code.val ++ u8 x.2.mode.code ++ u16 x.2.retry ++ u8 x.2.state.code ++ [x.2.detail] ++
              timeBytes x.2.raisedAt ++ u8 x.2.occurrences ++ flag x.2.acked ++
              opt (fun t : Time => u24 (t - s.tb).toNat) x.2.deadline)
          (AlertKind.all.filterMap fun k => (s.entry p k).map fun e => (k, e))))) ∧
    exec (.alertList tag [0]) s = .next (s.reply 0x49 tag .ok
      ((s.presses.toList.zip s.au.tables.toList).flatMap (fun x =>
          let l := x.2.toList.filterMap id
          let count : (AlertEntry → Bool) → List Byte := fun f => u8 (l.filter f).length
          flag x.1.held ++ count (fun e => decide (e.state = .active)) ++
            count (fun e => decide (e.state = .retryWait)) ++ count (fun e => decide (e.state = .clearWait)) ++
            count fun e => !e.acked) ++
        s.au.modes.toList.flatMap fun r => u8 r.mode.code ++ u16 r.retry))

/-- R176, R177, R179, R170, R182, R107: ALERT_CLEAR removes the named entries that are not ACTIVE and answers each kind's
outcome; a retry deadline that is reached removes its entry. A press whose last holding entry goes is no longer held and is
sent RESUME after the frame then being sent. Outside RUN, or where no hold ends, each removal queues one REMOVED notice, in
kind-code order, and nothing of jobs, queues, accounts, meters, store or other presses changes. That a deadline not reached
passes without effect is log entry 8 (DESIGN CHOICE), the count and the codes of ALERT_CLEAR's outcomes are log entry 10, and
that bits 11 to 15 of a kind set are ignored is log entry 32 (both DESIGN CHOICE). -/
def Obligations.EntriesRemovedWhenCleared : Prop :=
  ∀ (p : Fin 16) (s : State), s.holdsSound →
    let pr := s.presses[p]
    let removes : Nat → List AlertKind → State → Prop := fun reason gone u =>
      (∀ k ∈ gone, u.entry p k = none) ∧ (∀ k, k ∉ gone → u.entry p k = s.entry p k) ∧ u.au.modes = s.au.modes ∧
      (∀ q : Fin 16, q ≠ p → u.au.tables[q] = s.au.tables[q]) ∧ u.presses[p].held = tableHolds u.au.tables[p] ∧
      u.tb = s.tb ∧ u.smm = s.smm ∧ u.store = s.store ∧
      (pr.held = true → u.presses[p].held = false → ∃ l m, u.presses[p].out = pr.out ++ l ++ .resume :: m ∧
        (pr.tx = none → l = []) ∧ (s.mlc.mode ≠ .run → m = [])) ∧
      (u.presses[p].held = pr.held → u.presses[p].out = pr.out) ∧
      (s.mlc.mode ≠ .run ∨ u.presses[p].held = pr.held → u.jobs = s.jobs ∧ u.ru = s.ru ∧ u.mu = s.mu ∧
        (∀ q : Fin 16, q ≠ p → u.presses[q] = s.presses[q]) ∧ u.presses[p].path = pr.path ∧
        u.mlc = gone.foldl (fun m k => Mlc.enqueue
          { kind := .alert, subtype := 3, object := p.val, time := s.tb
            detail := u8 k.code.val ++ u8 reason ++ u8 (((s.entry p k).map AlertEntry.occurrences).getD 0) ++
              flag u.presses[p].held } m) s.mlc)
    (∀ (tag : Byte) (n : Nat), s.takes = true → n < 65536 →
      let named := kindSetOf n
      let gone : List AlertKind := named.filter fun k => match s.entry p k with
        | some e => decide (e.state ≠ .active)
        | none => false
      ∃ u : State, removes 1 gone u ∧
        exec (.alertClear tag (u8 p.val ++ u16 n)) s = .next (u.reply 0x4A tag .ok
          (u8 named.length ++ (named.flatMap fun k => match s.entry p k with
              | none => u8 0
              | some e => if e.state = .active then u8 1 else u8 2) ++
            flag u.presses[p].held))) ∧
    ∀ (k : AlertKind) (e : AlertEntry) (t : Time), s.entry p k = some e → e.state = .retryWait →
      e.deadline = some t →
      (reached s.tb t = true → ∃ u, exec (.retryDeadline p k) s = .next u ∧ removes 0 [k] u) ∧
      (reached s.tb t = false → exec (.retryDeadline p k) s = .next s)

/-- R191, R192, R193, R194, R187: an acknowledgement of a press, or of a zone, sets the acknowledged flag of all its
entries, derives the zone's pattern, counts it on the zone and queues the ZONE notice; of nothing it changes nothing.
ZONE_QUERY carries a zone, or the four summaries. The members as counted lists of press numbers are the model's layout (log
entry 10). -/
def Obligations.ZonesAcknowledgedAndReported : Prop :=
  ∀ (tag : Byte) (s : State), s.takes = true →
    let acks : Instr → List (Fin 16) → Fin 4 → Option (Fin 16) → Prop := fun request l z named =>
      let changed := ((l.flatMap fun p => s.au.tables[p].toList.filterMap id).filter fun e => !e.acked).length
      ((∀ p ∈ l, ∀ k, s.entry p k = none) → exec request s =
        .next (s.reply 0x4B tag .ok (u8 0 ++ u8 s.zones[z].pattern.code))) ∧
      ((∃ p ∈ l, ∃ k, s.entry p k ≠ none) → ∃ au : Au, ∃ zone : Zone,
        au.modes = s.au.modes ∧
        (∀ p : Fin 16, au.tables[p] = if p ∈ l then
            s.au.tables[p].map (fun x => x.map fun e => { e with acked := true }) else s.au.tables[p]) ∧
        zone = { (s.zones[z]).derive s.tb (patternOf (State.zoneEntries { s with au } z)) with
          acks := min 65535 (s.zones[z].acks + 1), lastAck := some (s.tb, .host) } ∧
        exec request s = .next (State.reply 0x4B tag .ok (u8 changed ++ u8 zone.pattern.code)
          (State.notice .zone 1 z.val
            (opt (fun p : Fin 16 => u8 p.val) named ++ u8 changed ++ u16 zone.acks ++ u8 zone.pattern.code)
            { s with au, zones := s.zones.set z zone })))
    (∀ p : Fin 16, acks (.alertAckPress tag (0 :: u8 p.val)) [p] s.presses[p].profile.zone (some p)) ∧
    (∀ z : Fin 4, acks (.alertAckZone tag (1 :: u8 z.val)) (s.members z) z none) ∧
    let counts : Fin 4 → List Byte := fun z =>
      let l := s.zoneEntries z
      let a := (l.filter fun e => !e.acked && decide (e.mode = .latched)).length
      let b := (l.filter fun e => !e.acked && decide (e.mode = .retry)).length
      u8 a ++ u8 b ++ u8 (l.length - a - b)
    let members : Fin 4 → List Byte := fun z => list8 (fun p : Fin 16 => u8 p.val) (s.members z)
    (∀ z : Fin 4, exec (.zoneQuery tag (1 :: u8 z.val)) s = .next (s.reply 0x4C tag .ok
      (u8 s.zones[z].pattern.code ++ opt (fun t : Time => timeBytes (s.tb - t)) s.zones[z].phase ++ members z ++
        counts z ++
        list8 (fun p : Fin 16 => u8 p.val ++ flag s.presses[p].held)
          ((s.members z).filter fun p => !(s.au.tables[p].toList.filterMap id).isEmpty) ++
        u8 s.zones[z].button.code ++ u16 s.zones[z].acks ++
        opt (fun x : Time × AckSource => timeBytes x.1 ++ u8 x.2.code) s.zones[z].lastAck))) ∧
    exec (.zoneQuery tag [0]) s = .next (s.reply 0x4C tag .ok
      ((List.finRange 4).flatMap fun z =>
        u8 s.zones[z].pattern.code ++ members z ++ counts z ++ u8 s.zones[z].button.code))

/-- R190: what a change of an acknowledge input and a button deadline do in each of the four states; a press held for
the 20 ms takes one acknowledgement for its zone. The level is recorded in the pins (log entry 30, DESIGN CHOICE), and a
deadline not reached passes without effect (log entry 8, DESIGN CHOICE). -/
def Obligations.ButtonsDebounced : Prop :=
  ∀ (z : Fin 4) (s : State),
    let zone := s.zones[z]
    let after : Bool → ButtonState → Option Time → Prop := fun active b d =>
      ∃ pins : Pins, exec (.ackInputChange z active) s =
          .next { s with pins, zones := s.zones.set z { zone with button := b, deadline := d } } ∧
        [pins.ack0, pins.ack1, pins.ack2, pins.ack3] =
          [s.pins.ack0, s.pins.ack1, s.pins.ack2, s.pins.ack3].set z.val active ∧
        pins.sizeFirst = s.pins.sizeFirst ∧ pins.sizeSecond = s.pins.sizeSecond
    (zone.button = .released → after true .pressing (some (s.tb + 20)) ∧ after false .released zone.deadline) ∧
    (zone.button = .pressing → after false .released none ∧ after true .pressing zone.deadline) ∧
    (zone.button = .pressed → after false .releasing (some (s.tb + 20)) ∧ after true .pressed zone.deadline) ∧
    (zone.button = .releasing → after true .pressed none ∧ after false .releasing zone.deadline) ∧
    ∀ t : Time, zone.deadline = some t →
      (reached s.tb t = false → exec (.buttonDeadline z) s = .next s) ∧
      (reached s.tb t = true → zone.button = .releasing → exec (.buttonDeadline z) s =
        .next { s with zones := s.zones.set z { zone with button := .released, deadline := none } }) ∧
      (reached s.tb t = true → zone.button = .pressing → ∃ u, exec (.buttonDeadline z) s = .next u ∧
        u.zones[z].button = .pressed ∧ u.zones[z].deadline = none ∧ u.presses = s.presses ∧ u.jobs = s.jobs ∧
        u.mu = s.mu ∧ u.store = s.store ∧ u.pins = s.pins ∧
        ((∀ p ∈ s.members z, ∀ k, s.entry p k = none) →
          u.au = s.au ∧ u.mlc = s.mlc ∧ u.zones[z].acks = zone.acks) ∧
        ((∃ p ∈ s.members z, ∃ k, s.entry p k ≠ none) →
          u.zones[z].acks = min 65535 (zone.acks + 1) ∧ u.zones[z].lastAck = some (s.tb, .button) ∧
          u.zones[z].pattern = patternOf (u.zoneEntries z) ∧
          ∀ p ∈ s.members z, ∀ k e, u.entry p k = some e → e.acked = true))

/-! ### The feed links and the engines (chapters 4 and 5) -/

/-- R71, R72, R74, R84: a HELLO passes a DISABLED press by; it brings an AWAITING press ONLINE with what it reports, its
applied window and effective capabilities, and queues the PRESS notice ONLINE; on an ONLINE press it records the same,
raises PRESS_RESTART with detail 1 for another machine and 0 for the same, and loses every path entry; what that does to
their job is R10's (Job.afterLoss), and a job left in ENDING ends (R14). In QUIESCING the part drains when no path holds
an entry (R111, R204), with a notice whose place in the event is log entry 14 (DEDUCED) and whose object number is log
entry 37 (DESIGN CHOICE). That bits 2 to 7 of the capability byte are ignored is log entry 32, and that the notice's yes
is a 1 is log entry 10 (both DESIGN CHOICE). -/
def Obligations.HelloBringsPressOnline : Prop :=
  ∀ (p : Fin 16) (model : Vector Byte 16) (serial : Vector Byte 12) (caps grades w : Byte) (s : State),
    let pr := s.presses[p]
    let command : Instr := .hello p model serial caps grades w
    let win := max 1 (min 8 w.toNat)
    let eff : Caps := {
      color := pr.profile.caps.color && caps.getLsbD 0, duplex := pr.profile.caps.duplex && caps.getLsbD 1,
      grades := pr.profile.caps.grades &&& grades }
    let up : Press := { pr with
      link := .online, applied := some win, effective := some eff, lastFrame := some s.tb
      reported := some { model, serial, caps := ⟨caps.getLsbD 0, caps.getLsbD 1, grades⟩, announced := w } }
    let shows : State → Prop := fun u =>
      u.presses[p].link = .online ∧ u.presses[p].applied = some win ∧ u.presses[p].effective = some eff ∧
        u.presses[p].lastFrame = some s.tb ∧ u.presses[p].reported = up.reported ∧
        u.presses[p].probes = pr.probes ∧ u.presses[p].badChecks = pr.badChecks ∧ u.presses[p].profile = pr.profile
    (pr.link = .disabled → exec command s = .next s) ∧
    (pr.link = .awaiting →
      (∃ u, exec command s = .next u ∧ shows u ∧ u.presses[p].probeDeadline = none ∧
        u.mu.meters = s.mu.meters ∧ u.store = s.store ∧ u.smm = s.smm ∧ u.au = s.au) ∧
      ((pr.bound ≠ none ∨ pr.held = true ∨ s.mlc.mode ≠ .run) → exec command s = .next
        (State.notice .press 0 p.val (u8 win ++ flag eff.color ++ flag eff.duplex ++ [eff.grades])
          { s with presses := s.presses.set p { up with probeDeadline := none } }))) ∧
    (pr.link = .online → s.mu.meters[p].live.spoiled ≤ 999999999 → ∃ u, exec command s = .next u ∧ shows u ∧
      u.mu.meters[p].live = { s.mu.meters[p].live with
        spoiled := min 999999999 (s.mu.meters[p].live.spoiled + pr.path.length) } ∧
      (let changed : Bool := match pr.reported with
        | some o => decide (o.model ≠ model ∨ o.serial ≠ serial)
        | none => true
       u.entry p .pressRestart = s.raisedEntry p .pressRestart (if changed then 1 else 0)) ∧
      (s.mlc.mode ≠ .run → u.presses[p].path = [] ∧
        (∀ a : Fin 256, u.mu.accounts[a].held = s.mu.accounts[a].held -
          ((pr.path.filter fun e => decide (e.account = a)).map fun e => (e.charge : Int)).sum) ∧
        (∀ q : Fin 16, q ≠ p → u.presses[q].path = s.presses[q].path ∧ u.mu.meters[q] = s.mu.meters[q])) ∧
      s.drainTells u p [] ∧
      ∀ (h : Handle) (j : Job), pr.path ≠ [] → (pr.path.map PathEntry.tag).Nodup → (∀ e ∈ pr.path, e.job = h) →
        s.jobOf h = some j → j.press = some p → (j.state = .active ∨ j.state = .ending) →
        s.lossesTell u h j (pr.path.map PathEntry.pair) True (s.mlc.mode ≠ .run ∨ pr.held = true))

/-- R71, R79, R70: a sound or malformed frame on a press that is not ONLINE passes without effect. On an ONLINE press BEAT
sets the last frame time, and ends LINK_SILENT where that is active; a malformed frame sets it and raises PROTOCOL with
detail 1; a frame that fails its check is counted, and raises PROTOCOL with detail 0 on an ONLINE press. -/
def Obligations.FramesHeardOnlineOnly : Prop :=
  ∀ (p : Fin 16) (s : State),
    let pr := s.presses[p]
    let heard := s.presses.set p { pr with lastFrame := some s.tb }
    (∀ (w kindDetail : Byte) (tag : Half) (k : FaultKind) (tags : List Half) (typ : Byte) (body : List Byte),
      pr.link ≠ .online →
      exec (.window p w) s = .next s ∧ exec (.taken p tag) s = .next s ∧ exec (.delivered p tag) s = .next s ∧
        exec (.fault p k kindDetail tags) s = .next s ∧ exec (.clear p k kindDetail) s = .next s ∧
        exec (.beat p) s = .next s ∧ exec (.feedBadFrame p typ body) s = .next s) ∧
    (pr.link = .online → s.silent p = false → exec (.beat p) s = .next { s with presses := heard }) ∧
    (∀ e e' : AlertEntry, pr.link = .online → s.entry p .linkSilent = some e → e.state = .active →
      s.endedEntry p .linkSilent none = some e' →
      let au : Au := { s.au with tables := s.au.tables.set p (s.au.tables[p].set 6 (some e')) }
      let z := pr.profile.zone
      exec (.beat p) s = .next
        (State.notice .alert 2 p.val (u8 6 ++ [e'.detail] ++ u8 e'.state.code ++ opt timeBytes e'.deadline)
          { s with
            presses := heard
            au := au
            zones := s.zones.set z
              ((s.zones[z]).derive s.tb (patternOf (State.zoneEntries { s with presses := heard, au } z))) })) ∧
    (∀ (typ : Byte) (body : List Byte), parseFeed typ body = none → pr.link = .online →
      ∃ u, exec (.feedBadFrame p typ body) s = .next u ∧ u.presses[p].lastFrame = some s.tb ∧
        u.entry p .protocol = s.raisedEntry p .protocol 1 ∧ u.presses[p].path = pr.path ∧ u.jobs = s.jobs ∧
        u.mu = s.mu ∧ u.ru = s.ru ∧ u.smm = s.smm ∧ ∀ q : Fin 16, q ≠ p → u.presses[q] = s.presses[q]) ∧
    ∀ (typ : Byte) (len check : Half) (body : List Byte),
      (1026 < len.toNat ∨ (body.length = len.toNat ∧ crc16 (typ :: (u16 body.length ++ body)) ≠ check)) →
      let counted := s.presses.set p { pr with badChecks := min 65535 (pr.badChecks + 1) }
      (pr.link = .disabled → exec (.feedBadCheck p typ len body check) s = .next s) ∧
      (pr.link = .awaiting → exec (.feedBadCheck p typ len body check) s = .next { s with presses := counted }) ∧
      (pr.link = .online →
        (s.au.modes[(9 : Fin 11)].mode = .ignore →
          exec (.feedBadCheck p typ len body check) s = .next { s with presses := counted }) ∧
        ∃ u, exec (.feedBadCheck p typ len body check) s = .next u ∧
          u.presses[p].badChecks = min 65535 (pr.badChecks + 1) ∧ u.presses[p].lastFrame = pr.lastFrame ∧
          u.entry p .protocol = s.raisedEntry p .protocol 0 ∧ u.jobs = s.jobs ∧ u.mu = s.mu ∧ u.ru = s.ru ∧
          u.smm = s.smm ∧ ∀ q : Fin 16, q ≠ p → u.presses[q] = s.presses[q])

/-- R73, R75, R97, R102, R71: on an ONLINE press WINDOW records and applies the announced window, clamped into 1 to 8, and
queues its notice on a change; TAKEN sets the time taken of its entry and the stall watch follows; a TAKEN of a tag that
is not in the path raises PROTOCOL with detail 2. An opportunity may add one entry at the tail in RUN. That a second TAKEN
of an entry still SENDING sets its time taken again is the model's reading (log entry 17). -/
def Obligations.WindowAndTakenMovePath : Prop :=
  ∀ (p : Fin 16) (s : State), s.presses[p].link = .online →
    let pr := s.presses[p]
    let still : State → Prop := fun u =>
      u.presses[p].lastFrame = some s.tb ∧ u.smm = s.smm ∧ u.mu.meters = s.mu.meters ∧
        (∀ q : Fin 16, q ≠ p → u.presses[q] = s.presses[q]) ∧
        (s.mlc.mode ≠ .run → u.jobs = s.jobs ∧ u.mu = s.mu ∧ u.ru = s.ru ∧ u.mlc.mode = s.mlc.mode)
    (∀ w : Byte, ∃ u l, exec (.window p w) s = .next u ∧ still u ∧ u.store = s.store ∧
      (let new := max 1 (min 8 w.toNat)
       u.presses[p].applied = some new ∧ u.presses[p].reported = pr.reported.map (fun r => { r with announced := w }) ∧
       u.presses[p].path = pr.path ++ l ∧ l.length ≤ 1 ∧ (s.mlc.mode ≠ .run → l = []) ∧
       (s.silent p = false → s.mlc.mode ≠ .run → u.mlc =
         if pr.applied.getD 0 = new then s.mlc
         else (State.notice .press 2 p.val (u8 (pr.applied.getD 0) ++ u8 new) s).mlc))) ∧
    (∀ tag : Half, (∃ e ∈ pr.path, e.tag = tag) → ∃ u l, exec (.taken p tag) s = .next u ∧ still u ∧ u.store = s.store ∧
      (let moved := pr.path.map fun e =>
         if e.tag = tag then
           match e.state with
           | .sent => { e with takenAt := some s.tb, state := .taken }
           | .sending => { e with takenAt := some s.tb }
           | .taken => e
         else e
       u.presses[p].path = moved ++ l ∧ l.length ≤ 1 ∧ (s.mlc.mode ≠ .run → l = []) ∧
       u.presses[p].watch.map (fun w => (w.tag, w.deadline)) =
         ((moved.filter fun e => e.takenAt.isSome).head?).bind fun e =>
           e.takenAt.map fun t => (e.tag, t + secs (pr.runStall.getD 0)))) ∧
    ∀ tag : Half, (∀ e ∈ pr.path, e.tag ≠ tag) → ∃ u, exec (.taken p tag) s = .next u ∧ still u ∧
      u.entry p .protocol = s.raisedEntry p .protocol 2 ∧ u.presses[p].path = pr.path ∧ u.mu = s.mu ∧ u.jobs = s.jobs

/-- R98, R10, R137, R146, R147, R99, R14, R15: a DELIVERED of an entry of the path counts its faces and the sheet on the
press's meters and on its account, and every older entry as spoiled; at the checkpoint interval it marks the press pending
and begins the count afresh; of the oldest entry, of a job with more to come, it moves the charge from the held amount
onto the balance and counts the sheet on the job; the last sheet of a closed job ends the job DONE in every mode, and
frees its spool. The losses of the older entries change their job as R10 says (Job.afterLoss), the delivery is counted
behind them, and the last entry of a job in ENDING ends it with the reason it has. In QUIESCING the part drains when no
path holds an entry (R111, R204), with a notice whose place in the event is log entry 14 (DEDUCED) and whose object number
is log entry 37 (DESIGN CHOICE). A tag that is not in the path, be that empty or not, raises PROTOCOL with detail 2 (R75).
A job that is done stands in no queue. -/
def Obligations.DeliveredSettlesEntry : Prop :=
  (∀ (p : Fin 16) (tag : Half) (s : State), s.presses[p].link = .online → (∀ x ∈ s.presses[p].path, x.tag ≠ tag) →
    ∃ u, exec (.delivered p tag) s = .next u ∧ u.presses[p].lastFrame = some s.tb ∧
      u.entry p .protocol = s.raisedEntry p .protocol 2 ∧ u.presses[p].path = s.presses[p].path ∧
      u.mu = s.mu ∧ u.jobs = s.jobs ∧ u.ru = s.ru ∧ u.smm = s.smm) ∧
  ∀ (p : Fin 16) (older newer : List PathEntry) (e : PathEntry) (s : State), s.presses[p].link = .online →
    s.presses[p].path = older ++ e :: newer → (s.presses[p].path.map PathEntry.tag).Nodup → s.metersBounded →
    let pr := s.presses[p]
    let live := s.mu.meters[p].live
    let acc := s.mu.accounts[e.account]
    let faces : Nat := if e.ink2.isSome then 2 else 1
    let monos : Nat := (if e.ink1 = .mono then 1 else 0) + if e.ink2 = some .mono then 1 else 0
    (∃ u, exec (.delivered p e.tag) s = .next u ∧ u.presses[p].lastFrame = some s.tb ∧
      u.mu.meters[p].live = {
        mono := min 999999999 (live.mono + monos), color := min 999999999 (live.color + (faces - monos)),
        delivered := min 999999999 (live.delivered + 1),
        spoiled := min 999999999 (live.spoiled + older.length) } ∧
      u.mu.accounts[e.account].faces = min 4294967295 (acc.faces + faces) ∧
      u.mu.accounts[e.account].sheets = min 4294967295 (acc.sheets + 1) ∧
      (∀ q : Fin 16, q ≠ p → u.mu.meters[q] = s.mu.meters[q]) ∧
      (older ≠ [] → u.entry p .misfeed = s.raisedEntry p .misfeed (BitVec.ofNat 8 older.length)) ∧
      (s.mlc.mode ≠ .run → u.presses[p].path = newer) ∧ s.drainTells u p newer ∧
      (let count := s.mu.meters[p].since + 1
       let due : Prop := pr.profile.checkpoint ≤ count
       (due → u.mu.meters[p].since = 0 ∧ u.store.marks[p].pending = true) ∧
       (¬ due → u.mu.meters[p].since = count) ∧
       (older = [] → s.mlc.mode ≠ .quiescing →
         (newer = [] ∨ s.au.modes[(7 : Fin 11)].mode = .report ∨ s.au.modes[(7 : Fin 11)].mode = .ignore) →
         (due → u.store = { s.store with
           marks := s.store.marks.set p { s.store.marks[p] with pending := true } }) ∧
         (¬ due → u.store = s.store))) ∧
      ∀ j : Job, (∀ x ∈ older, x.job = e.job) → s.jobOf e.job = some j → j.press = some p →
        (j.state = .active ∨ j.state = .ending) →
        let k := (older.map PathEntry.pair).foldl Job.afterLoss j
        let counted : Job := { k with
          delivered := k.delivered + 1, faces := k.faces + faces, charged := min 4294967295 (k.charged + e.charge) }
        (k.state = .ending ∨ k.closed = false ∨ k.cursor ≠ .allDispatched ∨ k.reprint ≠ [] ∨ newer ≠ []) →
          s.jobTells u e.job j counted (k.state = .ending ∧ newer = []) (s.mlc.mode ≠ .run ∨ pr.held = true)) ∧
    (∀ j : Job, older = [] → s.jobOf e.job = some j → j.state = .active →
      (j.closed = false ∨ j.cursor ≠ .allDispatched ∨ j.reprint ≠ []) → ∃ u, exec (.delivered p e.tag) s = .next u ∧
        u.mu.accounts[e.account].balance = acc.balance - e.charge ∧
        u.mu.accounts[e.account].charged = min 4294967295 (acc.charged + e.charge) ∧
        (s.mlc.mode ≠ .run → u.mu.accounts[e.account].held = acc.held - e.charge ∧
          u.jobs = s.jobs.set e.job.slot { gen := e.job.gen, job := some { j with
            delivered := j.delivered + 1, faces := j.faces + faces,
            charged := min 4294967295 (j.charged + e.charge) } } ∧
          u.ru = s.ru ∧ u.smm = s.smm)) ∧
    ∀ j : Job, older = [] → newer = [] → s.jobOf e.job = some j → j.state = .active → j.closed = true →
      j.cursor = .allDispatched → j.reprint = [] → j.press = some p →
      (s.mlc.mode ≠ .run ∨ s.inNoQueue e.job) →
      ∃ u r, exec (.delivered p e.tag) s = .next u ∧ u.jobs[e.job.slot] = { gen := e.job.gen, job := some r } ∧
        r.state = .done ∧ r.delivered = j.delivered + 1 ∧ r.press = none ∧ r.endedAt = some s.tb ∧
        (∃ x, r.endRecord = some x ∧ x.reason = .done ∧ x.failedSheet = none) ∧
        u.presses[p].bound ≠ some e.job ∧ (s.mlc.mode ≠ .run ∨ pr.held = true → u.presses[p].bound = none) ∧
        u.smm.free = s.smm.free ++ s.smm.slots[e.job.slot].chain ∧
        u.smm.slots[e.job.slot] = { chain := [], wpos := ⟨0, 0⟩, sheets := [] }

/-- R76, R77, R171, R172, R174, R100, R106, R148, R182: on an ONLINE press a FAULT raises its kind with its detail,
holding the press where the entry created is LATCHED or RETRY, and loses the entries its tags name, each counted as
spoiled; tags not in the path raise PROTOCOL with detail 2. The losses, in the order of the tags, change their job as R10
says (Job.afterLoss), and a job that they leave in ENDING with an empty path ends. A fault without tags does nothing under
IGNORE; a kind that has an entry is REPEATED in a notice; a new entry is RAISED in one, and where it begins a hold PAUSE
goes out after the frame then being sent, the press is marked pending in the meter store and shows STOPPED, and with an
empty path its unbind timer starts or runs on. In QUIESCING the part drains when no path holds an entry (R111, R204), with
a notice whose place in the event is log entry 14 and whose object number is log entry 37; the order of raise and losses,
a repeated tag counting once, is log entry 16; how far a transmission has come when PAUSE goes out is a free value (log
entry 5), and the notices' yes is a 1 (log entry 10). A CLEAR ends the condition of its kind and changes no job, queue,
account or other press. -/
def Obligations.FaultRaisesClearEnds : Prop :=
  ∀ (p : Fin 16) (kind : FaultKind) (detail : Byte) (s : State), s.presses[p].link = .online →
    let pr := s.presses[p]
    let k := kind.alert
    (∀ tags : List Half, tags.length ≤ 8 → (pr.path.map PathEntry.tag).Nodup → s.metersBounded →
      let lost := pr.path.filter fun e => decide (e.tag ∈ tags)
      ∃ u, exec (.fault p kind detail tags) s = .next u ∧ u.presses[p].lastFrame = some s.tb ∧
        u.entry p k = s.raisedEntry p k detail ∧
        (s.entry p k = none → (s.au.modes[k.code].mode = .latched ∨ s.au.modes[k.code].mode = .retry) →
          s.holdsSound → u.presses[p].held = true) ∧
        u.mu.meters[p].live = { s.mu.meters[p].live with
          spoiled := min 999999999 (s.mu.meters[p].live.spoiled + lost.length) } ∧
        ((∃ t ∈ tags, ∀ e ∈ pr.path, e.tag ≠ t) → u.entry p .protocol = s.raisedEntry p .protocol 2) ∧
        (s.mlc.mode ≠ .run → u.presses[p].path = pr.path.filter (fun e => decide (e.tag ∉ tags)) ∧
          ∀ a : Fin 256, u.mu.accounts[a].held = s.mu.accounts[a].held -
            ((lost.filter fun e => decide (e.account = a)).map fun e => (e.charge : Int)).sum) ∧
        s.drainTells u p (pr.path.filter fun e => decide (e.tag ∉ tags)) ∧
        (∀ (h : Handle) (j : Job), lost ≠ [] → (∀ e ∈ pr.path, e.job = h) → s.jobOf h = some j → j.press = some p →
          (j.state = .active ∨ j.state = .ending) →
          let inOrder := tags.eraseDups.filterMap fun t => pr.path.find? fun e => decide (e.tag = t)
          let holds : Prop := s.holdsSound ∧ s.entry p k = none ∧
            (s.au.modes[k.code].mode = .latched ∨ s.au.modes[k.code].mode = .retry)
          s.lossesTell u h j (inOrder.map PathEntry.pair) (lost = pr.path)
            (s.mlc.mode ≠ .run ∨ pr.held = true ∨ holds)) ∧
        (tags = [] → u.jobs = s.jobs ∧ u.mu = s.mu ∧ u.ru = s.ru ∧ u.smm = s.smm ∧
          u.presses[p].path = pr.path ∧ ∀ q : Fin 16, q ≠ p → u.presses[q] = s.presses[q])) ∧
    (s.silent p = false → s.mlc.mode ≠ .quiescing → s.holdsSound →
      let heard := s.presses.set p { pr with lastFrame := some s.tb }
      let command : Instr := .fault p kind detail []
      (s.au.modes[k.code].mode = .ignore → exec command s = .next { s with presses := heard }) ∧
      ∀ e' : AlertEntry, s.au.modes[k.code].mode ≠ .ignore → s.raisedEntry p k detail = some e' →
        let au : Au := { s.au with tables := s.au.tables.set p (s.au.tables[p].set k.code (some e')) }
        let z := pr.profile.zone
        let raised : State := { s with
          presses := heard, au
          zones := s.zones.set z
            ((s.zones[z]).derive s.tb (patternOf (State.zoneEntries { s with presses := heard, au } z))) }
        let notice : Bool → State → State := fun held => State.notice .alert 0 p.val
          (u8 k.code.val ++ u8 e'.mode.code ++ [detail] ++ u8 e'.state.code ++ flag held)
        (s.entry p k ≠ none → exec command s = .next (State.notice .alert 1 p.val
          (u8 k.code.val ++ u8 e'.mode.code ++ [detail] ++ u8 e'.occurrences ++ u8 e'.state.code ++ flag pr.held)
          raised)) ∧
        (s.entry p k = none → (pr.held = true ∨ e'.mode = .report) →
          exec command s = .next (notice pr.held raised)) ∧
        (s.entry p k = none → pr.held = false → (e'.mode = .latched ∨ e'.mode = .retry) → ∃ sent tx choices,
          exec command s = .next (notice true { raised with
            presses := s.presses.set p { pr with
              lastFrame := some s.tb, held := true, out := pr.out ++ sent ++ [.pause], tx
              cond := if pr.bound = none then none else some .stopped
              unbindDeadline :=
                if pr.bound ≠ none ∧ pr.path = [] ∧ pr.runUnbind.getD 0 ≠ 0 then
                  some (pr.unbindDeadline.getD (s.tb + secs (pr.runUnbind.getD 0)))
                else none }
            store := { s.store with marks := s.store.marks.set p { s.store.marks[p] with pending := true } }
            choices }) ∧
          (pr.tx = none → sent = [] ∧ tx = none ∧ choices = s.choices) ∧
          ∀ x : Transmission, pr.tx = some x → tx = some { x with sent := x.sent + sent.length } ∧
            ∀ f ∈ sent, ∃ block, f = .sheetData x.tag block)) ∧
    ∃ u, exec (.clear p kind detail) s = .next u ∧ u.entry p k = s.endedEntry p k (some detail) ∧
      u.presses = s.presses.set p { pr with lastFrame := some s.tb } ∧ u.jobs = s.jobs ∧ u.mu = s.mu ∧
      u.ru = s.ru ∧ u.smm = s.smm ∧ u.au.modes = s.au.modes ∧
      (∀ k' : AlertKind, k' ≠ k → k' ≠ .linkSilent → u.entry p k' = s.entry p k') ∧
      ∀ q : Fin 16, q ≠ p → u.au.tables[q] = s.au.tables[q]

/-- R67, R78, R102: a probe timer that has expired sends and counts another PROBE and starts again; a silence deadline
reached raises LINK_SILENT; a stall deadline reached raises STALL and records the stalled tag. Before its time each
passes without effect. No job, queue, account or other press changes. That an event before its time passes without
effect is the model's choice (log entry 8). -/
def Obligations.LinkTimersExpire : Prop :=
  ∀ (p : Fin 16) (t : Time) (s : State),
    let pr := s.presses[p]
    let still : State → Prop := fun u =>
      u.presses[p].path = pr.path ∧ u.presses[p].bound = pr.bound ∧ u.jobs = s.jobs ∧ u.mu = s.mu ∧ u.ru = s.ru ∧
        u.smm = s.smm ∧ u.tb = s.tb ∧ ∀ q : Fin 16, q ≠ p → u.presses[q] = s.presses[q]
    (pr.link = .awaiting → pr.probeDeadline = some t →
      (reached s.tb t = false → exec (.probeTimerExpiry p) s = .next s) ∧
      (reached s.tb t = true → exec (.probeTimerExpiry p) s = .next
        { s with presses := s.presses.set p { pr with
            out := pr.out ++ [.probe], probes := min 255 (pr.probes + 1),
            probeDeadline := some (s.tb + ms pr.profile.linkTimeout) } })) ∧
    (pr.link = .online → pr.lastFrame = some t → s.silent p = false →
      (reached s.tb (t + ms pr.profile.linkTimeout) = false → exec (.silenceDeadline p) s = .next s) ∧
      (reached s.tb (t + ms pr.profile.linkTimeout) = true → ∃ u, exec (.silenceDeadline p) s = .next u ∧
        u.entry p .linkSilent = s.raisedEntry p .linkSilent 0 ∧ still u)) ∧
    ∀ w : Watch, pr.watch = some w → pr.stalledTag = none → w.dropped = false →
      (reached s.tb w.deadline = false → exec (.stallDeadline p) s = .next s) ∧
      (reached s.tb w.deadline = true → ∃ u, exec (.stallDeadline p) s = .next u ∧
        u.entry p .stall = s.raisedEntry p .stall 0 ∧ still u ∧
        u.presses[p].stalledTag = if s.au.modes[(7 : Fin 11)].mode = .ignore then none else some w.tag)

/-- R55, R88, R89, R90, R105: a queue event of a class has its one READY server bind the first head, in the order of its
served classes, that it may be given: the job leaves its queue ACTIVE and bound, and JOB_MARK goes out first. Where
several READY servers, each serving the class alone, may be given its one job, exactly one of them takes it and the others
stay as they were; which one is a free value (log entry 5). An unbind deadline reached returns the job to the head of its
queue and leaves the press unbound when it may not bind again, being held, outside RUN, not ONLINE, or serving that class
alone without being fit for the job; a READY press in RUN that serves that class alone and is fit for the job takes it
again, before other presses hear of it (log entry 5). With no room the timer starts again with the full time. That a queue
event not reported and a deadline not reached pass without effect is the model's choice (log entry 8). -/
def Obligations.JobsBindAndReturn : Prop :=
  ∀ (p : Fin 16) (s : State),
    let pr := s.presses[p]
    (∀ (c k : Fin 8) (a b : List (Fin 8)) (e : QueueEntry) (l : List QueueEntry) (j : Job), c ∈ s.ru.reports →
      s.servers c = [p] → pr.held = false → s.mlc.mode = .run → pr.profile.classes = a ++ k :: b →
      (∀ d ∈ a, ∀ x l', s.ru.queues[d].entries = x :: l' → ∀ i, s.jobOf x.handle = some i → pr.allows i = false) →
      s.ru.queues[k].entries = e :: l → s.jobOf e.handle = some j → pr.allows j = true → pr.path = [] →
      ∃ u r m, exec (.queueEvent c) s = .next u ∧ u.jobs[e.handle.slot] = { gen := e.handle.gen, job := some r } ∧
        r.state = .active ∧ r.press = some p ∧ r.delivered = j.delivered ∧
        u.ru.queues[k].entries = l.filter (fun x => decide (x.handle ≠ e.handle)) ∧
        (∀ d : Fin 8, d ≠ k → u.ru.queues[d] = s.ru.queues[d]) ∧
        u.presses[p].bound = some e.handle ∧ u.presses[p].runStall = some pr.profile.stallTime ∧
        u.presses[p].runUnbind = some pr.profile.unbindTime ∧
        u.presses[p].out = pr.out ++ .jobMark e.handle j.copies j.label :: m ∧ m.length ≤ 1 ∧
        u.presses[p].path.length = m.length ∧
        (∀ i : Fin 64, i ≠ e.handle.slot → u.jobs[i] = s.jobs[i]) ∧
        (∀ q : Fin 16, q ≠ p → u.presses[q] = s.presses[q]) ∧ u.smm = s.smm ∧ u.store = s.store) ∧
    (∀ (c : Fin 8) (e : QueueEntry) (j : Job), c ∈ s.ru.reports → p ∈ s.servers c → s.mlc.mode = .run →
      s.ru.queues[c].entries = [e] → s.jobOf e.handle = some j →
      (∀ q ∈ s.servers c, s.presses[q].held = false ∧ s.presses[q].profile.classes = [c] ∧
        s.presses[q].allows j = true) →
      ∃ u, ∃ q ∈ s.servers c, exec (.queueEvent c) s = .next u ∧ u.presses[q].bound = some e.handle ∧
        u.ru.queues[c].entries = [] ∧
        (∃ r, u.jobs[e.handle.slot] = { gen := e.handle.gen, job := some r } ∧ r.state = .active ∧
          r.press = some q) ∧
        (∀ i : Fin 64, i ≠ e.handle.slot → u.jobs[i] = s.jobs[i]) ∧
        ∀ x : Fin 16, x ≠ q → u.presses[x] = s.presses[x]) ∧
    (∀ c : Fin 8, c ∉ s.ru.reports → exec (.queueEvent c) s = .next s) ∧
    ∀ (t : Time) (h : Handle) (j : Job), pr.unbindDeadline = some t → pr.bound = some h → s.jobOf h = some j →
      (reached s.tb t = false → exec (.unbindDeadline p) s = .next s) ∧
      (reached s.tb t = true → s.ru.queues[j.cls].capacity ≤ s.ru.queues[j.cls].entries.length →
        exec (.unbindDeadline p) s = .next { s with presses := s.presses.set p { pr with
          unbindDeadline := some (s.tb + secs (pr.runUnbind.getD 0)) } }) ∧
      (reached s.tb t = true → s.ru.queues[j.cls].entries.length < s.ru.queues[j.cls].capacity →
        (pr.held = true ∨ s.mlc.mode ≠ .run ∨ pr.link ≠ .online ∨
          (pr.profile.classes = [j.cls] ∧ pr.allows j = false)) → exec (.unbindDeadline p) s = .next
          { s with
            jobs := s.jobs.set h.slot { gen := h.gen, job := some { j with state := .queued, press := none } }
            ru := { s.ru with
              queues := s.ru.queues.set j.cls { s.ru.queues[j.cls] with
                entries := { handle := h, urgent := j.urgent } :: s.ru.queues[j.cls].entries }
              reports := s.ru.reports ++ [j.cls] }
            presses := s.presses.set p { pr with
              bound := none, cond := none, lastChoice := none, runStall := none, runUnbind := none, watch := none,
              stalledTag := none, unbindDeadline := none } }) ∧
      (reached s.tb t = true → s.ru.queues[j.cls].entries.length < s.ru.queues[j.cls].capacity →
        pr.held = false → s.mlc.mode = .run → pr.link = .online → pr.profile.classes = [j.cls] →
        pr.allows j = true → pr.path = [] → ∃ u r m,
          exec (.unbindDeadline p) s = .next u ∧ u.jobs[h.slot] = { gen := h.gen, job := some r } ∧
          r.state = .active ∧ r.press = some p ∧ r.delivered = j.delivered ∧
          u.ru.queues[j.cls].entries = s.ru.queues[j.cls].entries.filter (fun x => decide (x.handle ≠ h)) ∧
          u.presses[p].bound = some h ∧ u.presses[p].runStall = some pr.profile.stallTime ∧
          u.presses[p].runUnbind = some pr.profile.unbindTime ∧
          u.presses[p].out = pr.out ++ .jobMark h j.copies j.label :: m ∧ m.length ≤ 1 ∧
          u.presses[p].path.length = m.length ∧ (∀ q : Fin 16, q ≠ p → u.presses[q] = s.presses[q]) ∧
          (∀ i : Fin 64, i ≠ h.slot → u.jobs[i] = s.jobs[i]) ∧ u.smm = s.smm ∧ u.store = s.store)

/-- R93 to R96, R104, R136, R140, R97: an opportunity (here that of a reported rise) with room in the path prices the next
sheet, which is the head of the reprint list where that is not empty and the sheet at the cursor otherwise, and, when its
charge is granted, reserves it, appends the entry SENDING under a tag that is not in the path, takes the sheet out of the
list or advances the cursor, and sends SHEET_HEAD; a charge above the availability is refused and leaves FUNDS_WAIT. With
no sheet to choose it leaves STARVED, for a job that the press may not print or a sheet not yet complete, or DRAINING, for
a job in ENDING or with every sheet dispatched; STARVED with an empty path starts the unbind timer, or lets it run on,
where the running unbind time is not 0, and every other outcome stops it. The end of a transmission sends the data left
and SHEET_END and moves its entry on. That a rise not outstanding and a transmission end with no transmission in progress
pass without effect is the model's choice (log entry 8). -/
def Obligations.SheetsDispatchedAndSent : Prop :=
  ∀ (p : Fin 16) (s : State),
    let pr := s.presses[p]
    (∀ (a : Fin 256) (h : Handle) (j : Job) (r : SheetRecord) (x : CopySheet),
      ({ press := p, account := a } : Rise) ∈ s.mu.rises → pr.link = .online → pr.bound = some h → pr.held = false →
      s.mlc.mode = .run → (∀ e ∈ pr.path, e.state ≠ .sending) → pr.path.length < pr.applied.getD 0 →
      pr.path.length ≤ 8 → s.jobOf h = some j → pr.allows j = true → j.state = .active →
      (j.reprint.head? = some x ∨
        j.reprint = [] ∧ j.cursor = .next x.copy x.sheet ∧ 1 ≤ x.sheet ∧ x.sheet ≤ j.sheets) →
      s.smm.sheet? h.slot x.sheet = some r →
      let acc := s.mu.accounts[j.account]
      let price := (s.mu.plans[acc.plan]).charge j.grade (r.face1.ink, r.face1.coverage)
        (r.face2.map fun f => (f.ink, f.coverage)) acc.faces
      let rises := s.mu.rises.erase { press := p, account := a }
      let command : Instr := .availabilityRiseReport p a
      let taken : Job := match j.reprint with
        | _ :: rest => { j with reprint := rest }
        | [] => { j with
            cursor :=
              if j.closed = true ∧ j.sheets ≤ x.sheet then
                (if x.copy < j.copies then .next (x.copy + 1) 1 else .allDispatched)
              else .next x.copy (x.sheet + 1) }
      (acc.state = .opened → (price : Int) ≤ acc.balance - acc.held + acc.limit → ∃ tag : Half,
        (∀ e ∈ pr.path, e.tag ≠ tag) ∧ ((∀ e ∈ pr.path, e.tag ≠ pr.tagCounter) → tag = pr.tagCounter) ∧
        exec command s = .next { s with
          mu := { s.mu with
            rises := rises
            accounts := s.mu.accounts.set j.account { acc with held := acc.held + price } }
          jobs := s.jobs.set h.slot { gen := h.gen, job := some taken }
          presses := s.presses.set p { pr with
            tagCounter := tag + 1
            path := pr.path ++ [{
              tag, job := h, pair := x, ink1 := r.face1.ink, ink2 := r.face2.map Face.ink, charge := price,
              account := j.account, dispatched := s.tb, takenAt := none, state := .sending }]
            lastChoice := none, cond := some .sending, unbindDeadline := none
            tx := some { tag, slot := h.slot, sheet := x.sheet, sent := 0 }
            out := pr.out ++ [.sheetHead tag j.grade (r.face1.ink, r.face1.length)
              (r.face2.map fun f => (f.ink, f.length))] } }) ∧
      ((acc.state ≠ .opened ∨ acc.balance - acc.held + acc.limit < price) → pr.cond ≠ some .fundsWait →
        exec command s = .next
          (State.notice .funds 0 p.val
            (h.bytes ++ u16 j.account.val ++ u24 price ++ i32 (acc.balance - acc.held + acc.limit))
            { s with
              mu := { s.mu with rises }
              presses := s.presses.set p { pr with
                lastChoice := some .fundsWait, cond := some .fundsWait, unbindDeadline := none } }))) ∧
    (∀ (a : Fin 256) (h : Handle) (j : Job), ({ press := p, account := a } : Rise) ∈ s.mu.rises →
      pr.link = .online → pr.bound = some h → pr.held = false → s.mlc.mode = .run →
      (∀ e ∈ pr.path, e.state ≠ .sending) → pr.path.length < pr.applied.getD 0 → s.jobOf h = some j →
      let leaves : Choice → FeedCond → Option Time → Prop := fun choice cond timer =>
        exec (.availabilityRiseReport p a) s = .next { s with
          mu := { s.mu with rises := s.mu.rises.erase { press := p, account := a } }
          presses := s.presses.set p { pr with lastChoice := some choice, cond := some cond, unbindDeadline := timer } }
      let starves : Prop := leaves .starved .starved
        (if pr.path = [] ∧ pr.runUnbind.getD 0 ≠ 0 then
          some (pr.unbindDeadline.getD (s.tb + secs (pr.runUnbind.getD 0)))
         else none)
      let drains : Prop := leaves .draining .draining none
      (pr.allows j = false → starves) ∧
      (pr.allows j = true → j.state = .ending → drains) ∧
      (pr.allows j = true → j.state ≠ .ending → j.reprint = [] → j.cursor = .allDispatched → drains) ∧
      ∀ c n, pr.allows j = true → j.state ≠ .ending → j.reprint = [] → j.cursor = .next c n → j.sheets < n →
        starves) ∧
    (∀ a : Fin 256, ({ press := p, account := a } : Rise) ∉ s.mu.rises →
      exec (.availabilityRiseReport p a) s = .next s) ∧
    (∀ x : Transmission, pr.tx = some x → ∃ u l m, exec (.transmissionEnd p) s = .next u ∧
      u.presses[p].path = pr.path.map (fun e =>
        if e.tag = x.tag ∧ e.state = .sending then
          { e with state := if e.takenAt.isSome then .taken else .sent } else e) ++ l ∧
      u.presses[p].out = pr.out ++
        (match s.smm.sheet? x.slot x.sheet with
          | some r => (r.blocks.drop x.sent).map fun b => .sheetData x.tag (s.smm.readBlock x.slot r b)
          | none => []) ++ .sheetEnd x.tag :: m ∧
      l.length = m.length ∧ l.length ≤ 1 ∧ (s.mlc.mode ≠ .run → l = [] ∧ u.presses[p].tx = none ∧ u.jobs = s.jobs ∧
        u.mu = s.mu) ∧
      u.smm = s.smm ∧ u.ru = s.ru ∧ ∀ q : Fin 16, q ≠ p → u.presses[q] = s.presses[q]) ∧
    (pr.tx = none → exec (.transmissionEnd p) s = .next s)

/-! ### The meter store's own events (chapter 8) -/

/-- R148, R153, R154, R155, R159: a write begins for the lowest forced press, or the lowest pending one, with a snapshot
of its live counters, at the first free slot from the write slot on, or the first of SPARE where ACTIVE has none; with no
sequence left the store fails WORN. The slots passed on the way become void one after another, and SPARE becomes ACTIVE at
once when the last slot of ACTIVE is among them. The completion programs the record, voids what is left, touches no other
byte, moves the newest record, and reports SAVE_DONE when a save is owed and nothing is pending; a sector filled to its
end brings SPARE into use, and then, as after a write that went to SPARE, the sector next after ACTIVE is the victim and
exactly the presses whose newest record it holds are marked forced. How far a write has come is a free value, and the
record and the newest-record entry change at its completion (log entry 13); the fault where ACTIVE and SPARE are full is
log entry 23, a write event that is not there passes without effect by log entry 8, the form of a record's check is log
entry 43, and the FAILED and SAVE_DONE details are laid out by log entry 10 (all DESIGN CHOICE). -/
def Obligations.StoreWritesRecords : Prop :=
  ∀ s : State,
    let st := s.store
    let pending : Fin 16 → Prop := fun p => st.marks[p].pending = true
    let forced : Fin 16 → Prop := fun p => st.marks[p].pending = true ∧ st.marks[p].forced = true
    let old : Nat → Byte := Memory.read 0xFF st.flash
    let within : Fin 4 × Nat → Nat → Prop := fun x a => slotAddress x.1 x.2 ≤ a ∧ a < slotAddress x.1 x.2 + 32
    let slots : Fin 4 → Nat → Nat → List (Fin 4 × Nat) := fun k i n => (List.range' i n).map fun i => (k, i)
    let compacts : Fin 4 → State → Prop := fun k u => u.store.victim = some k ∧ ∀ p : Fin 16,
      u.store.marks[p] = if (u.store.newest[p]).map Newest.sector = some k then ⟨true, true⟩ else st.marks[p]
    (st.writeDue = false → exec .storeWriteBegin s = .next s) ∧
    (∀ p, st.chosen = some p ↔ (forced p ∧ ∀ q : Fin 16, q < p → ¬ forced q) ∨
      ((∀ q, ¬ forced q) ∧ pending p ∧ ∀ q : Fin 16, q < p → ¬ pending q)) ∧
    (∀ slot, st.writeSlot ≤ slot → slot < 256 → st.freeAt st.active slot = true →
      (∀ i, st.writeSlot ≤ i → i < slot → st.freeAt st.active i = false) →
      st.place = some (slots st.active st.writeSlot (slot - st.writeSlot), st.active, slot)) ∧
    (∀ k slot, st.spare = some k → (∀ i, st.writeSlot ≤ i → i < 256 → st.freeAt st.active i = false) → slot < 256 →
      st.freeAt k slot = true → (∀ i, i < slot → st.freeAt k i = false) →
      st.place = some (slots st.active st.writeSlot (256 - st.writeSlot) ++ slots k 0 slot, k, slot)) ∧
    (∀ p voids sector slot, st.writeDue = true → st.nextSeq ≤ 0xFFFFFFFE → st.chosen = some p →
      st.place = some (voids, sector, slot) →
      let begun : List (Fin 4 × Nat) → Store := fun left => { st with
        op := some (.write {
          press := p, sequence := st.nextSeq, snapshot := s.mu.meters[p].live, voids := left, sector := sector, slot := slot,
          moves := decide (sector ≠ st.active) })
        nextSeq := st.nextSeq + 1, marks := st.marks.set p ⟨false, false⟩
        state := if st.state = .scanning then .scanning else .writing }
      (voids = [] → exec .storeWriteBegin s = .next { s with store := begun [] }) ∧
      ∃ u n, exec .storeWriteBegin s = .next u ∧ n ≤ voids.length ∧
        u = { s with store := u.store, choices := u.choices } ∧
        u.store = { begun (voids.drop n) with
          active := u.store.active, spare := u.store.spare, writeSlot := u.store.writeSlot
          counts := u.store.counts, flash := u.store.flash } ∧
        (s.memoriesSound →
          (∀ x ∈ voids.take n, ∀ a, within x a → Memory.read 0xFF u.store.flash a = 0) ∧
          ∀ a, (∀ x ∈ voids.take n, ¬ within x a) → Memory.read 0xFF u.store.flash a = old a) ∧
        (st.writeSlot < 256 → (st.active, 255) ∉ voids.take n →
          u.store.active = st.active ∧ u.store.spare = st.spare ∧ u.store.writeSlot = st.writeSlot + n) ∧
        (st.writeSlot < 256 → (st.active, 255) ∈ voids.take n → sector ≠ st.active →
          u.store.active = sector ∧ u.store.spare = none ∧ u.store.writeSlot = n - (256 - st.writeSlot))) ∧
    (st.writeDue = true → 0xFFFFFFFE < st.nextSeq → st.state = .idle → exec .storeWriteBegin s = .next
      (State.notice .store 2 0 (u8 1 ++ [0] ++ u8 ((List.finRange 16).filter fun p => st.marks[p].pending).length)
        { s with store := { st with state := .failed, failed := some .worn, op := none, saveOwed := false } })) ∧
    (st.writeDue = true → st.nextSeq ≤ 0xFFFFFFFE → st.place = none →
      exec .storeWriteBegin s = .fault .noFreeSlot) ∧
    (∀ w : WriteOp, st.op = some (.write w) → s.memoriesSound → w.slot < 256 → (w.sector, w.slot) ∉ w.voids →
      (∀ x ∈ w.voids, x.2 < 256) → ∃ u, exec .storeWriteComplete s = .next u ∧
        u.store.op = none ∧ u.store.newest = st.newest.set w.press (some ⟨w.sector, w.slot, w.sequence⟩) ∧
        u.store.nextSeq = st.nextSeq ∧ u.mu = s.mu ∧ u.presses = s.presses ∧ u.jobs = s.jobs ∧ u.smm = s.smm ∧
        u.store.state = (if st.state = .scanning then .scanning else .idle) ∧
        (let new : Nat → Byte := Memory.read 0xFF u.store.flash
         (∀ i, i < 32 → some (new (slotAddress w.sector w.slot + i)) =
           (recordBytes w.press w.sequence w.snapshot)[i]?.map (old (slotAddress w.sector w.slot + i) &&& ·)) ∧
         (∀ x ∈ w.voids, ∀ a, within x a → new a = 0) ∧
         ∀ a, (∀ x ∈ (w.sector, w.slot) :: w.voids, ¬ within x a) → new a = old a) ∧
        (w.moves = false → w.sector = st.active → (∀ x ∈ w.voids, x.2 ≠ 255) →
          (w.slot + 1 < 256 →
            u.store.active = st.active ∧ u.store.spare = st.spare ∧ u.store.writeSlot = w.slot + 1 ∧
            u.store.victim = st.victim ∧ u.store.marks = st.marks ∧
            (st.saveOwed = true ∧ (∀ p, ¬ pending p) → u.store.saveOwed = false ∧
              u.mlc = (State.notice .store 1 0 (u16 0 ++ u32 w.sequence) s).mlc) ∧
            (st.saveOwed = false ∨ (∃ p, pending p) → u.store.saveOwed = st.saveOwed ∧ u.mlc = s.mlc)) ∧
          ∀ k : Fin 4, w.slot + 1 = 256 → st.spare = some k →
            u.store.active = k ∧ u.store.spare = none ∧ u.store.writeSlot = 0 ∧ compacts (k + 1) u) ∧
        (w.moves = true →
          u.store.active = w.sector ∧ u.store.spare = none ∧ u.store.writeSlot = w.slot + 1 ∧
          compacts (w.sector + 1) u)) ∧
    ((∀ w, st.op ≠ some (.write w)) → exec .storeWriteComplete s = .next s)

/-- R156, R157, R158, R162, R163, R161, R208, R151: an erase sets its whole sector to 0xFF and, verified, makes the victim
the SPARE; a first failed verify, of whatever bytes the erase left, tries once more and a second fails the store. In the
scan a verified erase is counted and leads on: to the next sector to clear, to the repair of the ring after the last one,
to the scan's end after the victim; a second failure leads to the scan's end with its reason. The scan's reading loads
each press's live counters from its record of highest sequence, or 0 without one; the scan's end leaves the store IDLE, or
FAILED, with no erase attempts, and queues the SCANNED notice when torn slots were found or sectors erased, and the MODE
notice. The scan clears the sectors that are neither erased nor hold a record, and then finds the ring: ACTIVE with the
record of highest sequence, the write slot behind its last slot in use, the next sequence, and the sector next to it as
SPARE when that is erased; a full ACTIVE hands over to SPARE, and a sector that then stands next to ACTIVE unerased is the
victim, whose newest records mark their presses forced. That a full ACTIVE without a SPARE stays ACTIVE is log entry 38,
and that a scan with both causes to fail names the erase is log entry 41 (both DESIGN CHOICE). What a failed scan leaves
is the model's reading (log entries 13, 22), that SCANNED counts verified erases alone is log entry 33, an event that is
not there passes without effect by log entry 8, the scan clears its sectors in an order, and ends at the first that fails,
by log entry 40, the form of a record's check is log entry 43, and the FAILED detail is laid out by log entry 10 (DESIGN CHOICE). -/
def Obligations.StoreErasesAndScans : Prop :=
  ∀ s : State,
    let st := s.store
    let old : Nat → Byte := Memory.read 0xFF st.flash
    let within : Fin 4 → Nat → Prop := fun k a => k.val * 8192 ≤ a ∧ a < (k.val + 1) * 8192
    let pendingCount := u8 ((List.finRange 16).filter fun p => st.marks[p].pending).length
    let erased : Fin 4 → State → Prop := fun k u =>
      u.store.counts[k] = ⟨256, 0, 0, 0⟩ ∧ (∀ i : Fin 4, i ≠ k → u.store.counts[i] = st.counts[i]) ∧
        u.mlc = s.mlc ∧ u.mu = s.mu ∧ u.presses = s.presses ∧ u.jobs = s.jobs ∧
        (∀ a, within k a → Memory.read 0xFF u.store.flash a = 0xFF) ∧
        ∀ a, ¬ within k a → Memory.read 0xFF u.store.flash a = old a
    let record : State → Fin 4 × Nat → MeterRecord → Prop := fun u x r =>
      x.2 < 256 ∧ slotKindOf (slotContent u.store.flash x.1 x.2) = .record r
    let isErased : State → Fin 4 → Prop := fun u k => u.store.counts[k].free = 256
    let compacts : State → Fin 4 → Prop := fun u k =>
      u.store.spare = none ∧ u.store.victim = some k ∧ u.store.scan = some .compacting ∧
        ∀ p : Fin 16, u.store.marks[p] =
          if (u.store.newest[p]).map Newest.sector = some k then ⟨true, true⟩ else st.marks[p]
    let ringAt : State → Fin 4 → Nat → Prop := fun u a next =>
      u.store.nextSeq = next ∧ u.store.op = none ∧ u.store.attempts = 0 ∧
      ∀ w, w ≤ 256 → (∀ i, w ≤ i → i < 256 → u.store.freeAt a i = true) →
        (∀ i, w = i + 1 → u.store.freeAt a i = false) →
        (w < 256 → isErased u (a + 1) → u.store.active = a ∧ u.store.writeSlot = w ∧ u.store.spare = some (a + 1) ∧
          u.store.victim = none ∧ u.store.marks = st.marks ∧ u.store.scan = some .ending) ∧
        (w = 256 → isErased u (a + 1) → u.store.active = a + 1 ∧ u.store.writeSlot = 0 ∧ compacts u (a + 2)) ∧
        (¬ isErased u (a + 1) → u.store.active = a ∧ u.store.writeSlot = w ∧ compacts u (a + 1))
    let ring : State → Prop := fun u =>
      ((∀ x r, ¬ record u x r) → ringAt u 0 1) ∧
      ∀ x r, record u x r → (∀ y r', record u y r' → y ≠ x → r'.sequence < r.sequence) →
        ringAt u x.1 (r.sequence + 1)
    (st.eraseDue = false → exec .storeEraseBegin s = .next s) ∧
    (∀ k, st.eraseDue = true → st.victim = some k → exec .storeEraseBegin s = .next { s with
      store := { st with
        op := some (.erase k), attempts := 1, state := if st.state = .scanning then .scanning else .erasing } }) ∧
    (∀ k, st.op = some (.erase k) →
      (∃ u, exec (.storeEraseEnd []) s = .next u ∧ erased k u ∧
        (st.scan = none → u.store.state = .idle ∧ u.store.op = none ∧ u.store.victim = none ∧
          u.store.spare = some k ∧ u.store.attempts = 0 ∧ u.store.marks = st.marks) ∧
        (∀ (k' : Fin 4) (rest : List (Fin 4)), st.scan = some (.clearing (k' :: rest)) → st.state = .scanning →
          u.store.state = .scanning ∧ u.store.op = some (.erase k') ∧ u.store.attempts = 1 ∧
          u.store.scan = some (.clearing rest) ∧ u.store.erased = st.erased + 1 ∧ u.store.marks = st.marks) ∧
        (st.scan = some (.clearing []) → st.state = .scanning →
          u.store.state = .scanning ∧ u.store.op = none ∧ u.store.attempts = 0 ∧ u.store.erased = st.erased + 1 ∧
          u.store.scan = some (if u.store.victim.isSome then .compacting else .ending) ∧
          (st.victim = none → ring u)) ∧
        (st.scan = some .compacting → u.store.state = st.state ∧ u.store.op = none ∧ u.store.victim = none ∧
          u.store.spare = some k ∧ u.store.attempts = 0 ∧ u.store.erased = st.erased + 1 ∧
          u.store.scan = some .ending ∧ u.store.marks = st.marks)) ∧
      ∀ left : List (Nat × Byte), left ≠ [] → (∀ c ∈ left, c.1 < 8192 ∧ c.2 ≠ 0xFF) →
        ∃ u, exec (.storeEraseEnd left) s = .next u ∧ u.mu = s.mu ∧ u.presses = s.presses ∧
          (∀ a, ¬ within k a → Memory.read 0xFF u.store.flash a = old a) ∧
          (∀ a, within k a → (∀ c ∈ left, a ≠ k.val * 8192 + c.1) → Memory.read 0xFF u.store.flash a = 0xFF) ∧
          ((left.map Prod.fst).Nodup →
            ∀ c ∈ left, Memory.read 0xFF u.store.flash (k.val * 8192 + c.1) = c.2) ∧
          (st.attempts < 2 → u.store.op = some (.erase k) ∧ u.store.attempts = 2 ∧ u.store.scan = st.scan ∧
            u.mlc = s.mlc) ∧
          (2 ≤ st.attempts → st.scan = none → u.store.state = .failed ∧ u.store.failed = some (.erase k) ∧
            u.store.op = none ∧ u.store.saveOwed = false ∧ u.store.victim = st.victim ∧
            u.mlc = (State.notice .store 2 k.val (u8 0 ++ 1 :: u8 k.val ++ pendingCount) s).mlc) ∧
          (2 ≤ st.attempts → ((∃ rest, st.scan = some (.clearing rest)) ∨ st.scan = some .compacting) →
            u.store.failed = some (.erase k) ∧ u.store.op = none ∧ u.store.scan = some .ending ∧
            u.store.state = st.state ∧ u.mlc = s.mlc)) ∧
    ((∀ k, st.op ≠ some (.erase k)) → ∀ l, exec (.storeEraseEnd l) s = .next s) ∧
    ((st.scan ≠ some .reading → exec .scanReadDone s = .next s) ∧
     (st.scan = some .reading → st.state = .scanning → ∃ u, exec .scanReadDone s = .next u ∧
       u.store.state = .scanning ∧ u.store.flash = st.flash ∧ u.presses = s.presses ∧ u.jobs = s.jobs ∧
       u.mlc = s.mlc ∧ u.mu.accounts = s.mu.accounts ∧ u.mu.plans = s.mu.plans ∧
       (∀ k : Fin 4, isErased u k ↔ ∀ i, i < 256 → st.freeAt k i = true) ∧
       (let clears : Fin 4 → Prop := fun k => ¬ isErased u k ∧ ∀ i r, ¬ record s (k, i) r
        ((∀ k, ¬ clears k) → st.victim = none → ring u) ∧
        ∀ k, clears k → (∀ i : Fin 4, i < k → ¬ clears i) →
          u.store.op = some (.erase k) ∧ u.store.attempts = 1 ∧ u.store.marks = st.marks ∧
          ∃ rest, u.store.scan = some (.clearing rest) ∧ rest.Pairwise (· < ·) ∧
            ∀ i, i ∈ rest ↔ k < i ∧ clears i) ∧
       ∀ p : Fin 16, u.mu.meters[p].since = s.mu.meters[p].since ∧
         ((∀ x r, record s x r → r.press ≠ p) →
           u.mu.meters[p].live = ⟨0, 0, 0, 0⟩ ∧ u.store.newest[p] = none) ∧
         ∀ x r, record s x r → r.press = p →
           (∀ y r', record s y r' → r'.press = p → y ≠ x → r'.sequence < r.sequence) →
           u.mu.meters[p].live = r.counters ∧ u.store.newest[p] = some ⟨x.1, x.2, r.sequence⟩)) ∧
    (st.scan ≠ some .ending → exec .scanEnd s = .next s) ∧
    (st.scan = some .ending →
      let recordless := u8 ((List.finRange 16).filter fun p => st.newest[p].isNone).length
      let close : StoreState → State → Host.Outcome State Fault Refusal := fun final t =>
        .next (State.notice .mode 1 0 (u8 st.cause.code ++ u8 final.code)
          (if 0 < st.torn ∨ 0 < st.erased then
            State.notice .store 0 0 (u16 st.torn ++ u8 st.erased ++ recordless ++ u8 final.code) t
           else t))
      (st.failed = none → st.nextSeq ≤ 0xFFFFFFFE →
        exec .scanEnd s = close .idle { s with store := { st with scan := none, state := .idle, attempts := 0 } }) ∧
      ((st.failed = some .worn ∨ (st.failed = none ∧ 0xFFFFFFFE < st.nextSeq)) →
        exec .scanEnd s = close .failed (State.notice .store 2 0 (u8 1 ++ [0] ++ pendingCount)
          { s with store := { st with
              scan := none, state := .failed, failed := some .worn, op := none, saveOwed := false
              attempts := 0 } })) ∧
      ∀ k : Fin 4, st.failed = some (.erase k) →
        exec .scanEnd s = close .failed (State.notice .store 2 k.val (u8 0 ++ 1 :: u8 k.val ++ pendingCount)
          { s with store := { st with
              scan := none, state := .failed, failed := some (.erase k), op := none, saveOwed := false
              attempts := 0 } }))
end

