-- ==== Sys2Proof/Laws/Codec.lean ====
section
/-! SUPPORT. A field that is written reads back: the byte, two-byte, three-byte, four-byte and signed fields, indexes,
codes, and the lengths of the fields. -/

namespace Sys2Proof.Machine

/-! ### Numbers below their width -/

/-- A byte made of a number below 256 is that number. -/
@[simp] theorem byte_toNat (n : Nat) : (BitVec.ofNat 8 n).toNat = n % 256 := by simp

/-- The two bytes of a number below 2^16 read back as it. -/
theorem be16_u16 (n : Nat) (h : n < 65536) : be16 (BitVec.ofNat 8 (n / 256)) (BitVec.ofNat 8 n) = n := by
  simp [be16]; omega

/-- The three bytes of a number below 2^24 read back as it. -/
theorem be24_u24 (n : Nat) (h : n < 16777216) :
    be24 (BitVec.ofNat 8 (n / 65536)) (BitVec.ofNat 8 (n / 256)) (BitVec.ofNat 8 n) = n := by
  simp [be24, be16]; omega

/-- The four bytes of a number below 2^32 read back as it. -/
theorem be32_u32 (n : Nat) (h : n < 4294967296) :
    be32 (BitVec.ofNat 8 (n / 16777216)) (BitVec.ofNat 8 (n / 65536)) (BitVec.ofNat 8 (n / 256)) (BitVec.ofNat 8 n)
      = n := by
  simp [be32, be24, be16]; omega

/-- The four bytes of a key read back as it. -/
theorem key_u32 (k : Key) :
    BitVec.ofNat 32 (be32 (BitVec.ofNat 8 (k.toNat / 16777216)) (BitVec.ofNat 8 (k.toNat / 65536))
      (BitVec.ofNat 8 (k.toNat / 256)) (BitVec.ofNat 8 k.toNat)) = k := by
  rw [be32_u32 _ (by have := k.isLt; omega)]; simp

/-- The two bytes of a tag read back as it. -/
theorem tagOf_u16 (t : Half) : tagOf (BitVec.ofNat 8 (t.toNat / 256)) (BitVec.ofNat 8 t.toNat) = t := by
  rw [tagOf, be16_u16 _ (by have := t.isLt; omega)]; simp

/-- The four bytes of a number from -2^31 to 2^31 - 1 read back as it. -/
theorem beInt_i32 (n : Int) (h1 : -2147483648 ≤ n) (h2 : n ≤ 2147483647) :
    beInt (BitVec.ofNat 8 ((BitVec.ofInt 32 n).toNat / 16777216)) (BitVec.ofNat 8 ((BitVec.ofInt 32 n).toNat / 65536))
      (BitVec.ofNat 8 ((BitVec.ofInt 32 n).toNat / 256)) (BitVec.ofNat 8 (BitVec.ofInt 32 n).toNat) = n := by
  rw [beInt, be32_u32 _ (by have := (BitVec.ofInt 32 n).isLt; omega), BitVec.ofNat_toNat, BitVec.setWidth_eq,
    BitVec.toInt_ofInt]
  simp [Int.bmod]; omega

/-! ### Indexes and codes -/

/-- An index reads back as itself. -/
@[simp] theorem toFin?_val (n : Nat) (i : Fin n) : toFin? n i.val = some i := by simp [toFin?]

/-- A number that is no index is refused. -/
theorem toFin?_none (n k : Nat) (h : n ≤ k) : toFin? n k = none := by simp [toFin?]; omega

/-- The byte of an index below 256 is the index. -/
theorem byte_index (n : Nat) (i : Fin n) (h : n ≤ 256) : (BitVec.ofNat 8 i.val).toNat = i.val := by
  have := i.isLt
  simp; omega

/-- An ink reads back from its code. -/
@[simp] theorem ink?_code (i : Ink) : ink? (BitVec.ofNat 8 i.code) = some i := by cases i <;> rfl

/-- The sides read back from their code. -/
@[simp] theorem sides?_code (x : Sides) : sides? (BitVec.ofNat 8 x.code) = some x := by cases x <;> rfl

/-- A jam policy reads back from its code. -/
@[simp] theorem jam?_code (x : JamPolicy) : jam? (BitVec.ofNat 8 x.code) = some x := by cases x <;> rfl

/-- An ink requirement reads back from its code. -/
@[simp] theorem inkReq?_code (x : InkReq) : inkReq? (BitVec.ofNat 8 x.code) = some x := by cases x <;> rfl

/-- A sides requirement reads back from its code. -/
@[simp] theorem sidesReq?_code (x : SidesReq) : sidesReq? (BitVec.ofNat 8 x.code) = some x := by cases x <;> rfl

/-- A response mode reads back from its code. -/
@[simp] theorem alertMode?_code (x : AlertMode) : alertMode? (BitVec.ofNat 8 x.code) = some x := by cases x <;> rfl

/-- A kind that a press may name reads back from its code. -/
@[simp] theorem faultKind?_code (x : FaultKind) : faultKind? x.code = some x := by cases x <;> rfl

/-- A yes-or-no field reads back as it was sent. -/
theorem yes_flag (b : Bool) : flag b = [if b then 1 else 0] ∧ yes (if b then 1 else 0) = b := by
  cases b <;> decide

/-! ### Lengths -/

/-- A one-byte field is one byte long. -/
@[simp] theorem u8_length (n : Nat) : (u8 n).length = 1 := rfl

/-- A two-byte field is two bytes long. -/
@[simp] theorem u16_length (n : Nat) : (u16 n).length = 2 := rfl

/-- A three-byte field is three bytes long. -/
@[simp] theorem u24_length (n : Nat) : (u24 n).length = 3 := rfl

/-- A four-byte field is four bytes long. -/
@[simp] theorem u32_length (n : Nat) : (u32 n).length = 4 := rfl

/-- A signed field is four bytes long. -/
@[simp] theorem i32_length (n : Int) : (i32 n).length = 4 := rfl

/-- A yes-or-no field is one byte long. -/
@[simp] theorem flag_length (b : Bool) : (flag b).length = 1 := by cases b <;> rfl

/-- A check is two bytes long. -/
@[simp] theorem checkBytes_length (c : Half) : (checkBytes c).length = 2 := rfl

/-- A meter record is 32 bytes long (R150). -/
theorem recordBytes_length (p : Fin 16) (n : Nat) (c : Counters) : (recordBytes p n c).length = 32 := by
  simp [recordBytes, Counters.bytes]

end Sys2Proof.Machine
end

