-- ==== Sys2Proof/Laws/Memory.lean ====
section
/-! SUPPORT. The laws of the two memories: every operation keeps the canonical form, a read after a write to the same
address gives the byte written, and a write leaves every other address alone. -/

namespace Sys2Proof.Machine

/-! ### The canonical form as a statement about the list -/

/-- The canonical form: addresses rise strictly and no entry equals what an unlisted address reads as. -/
theorem Memory.wf_iff (d : Byte) (m : Memory) :
    Memory.wf d m = true ↔ m.Pairwise (fun x y => x.1 < y.1) ∧ ∀ c ∈ m, c.2 ≠ d := by
  induction m with
  | nil => simp [Memory.wf]
  | cons c m ih =>
    cases m with
    | nil => simp [Memory.wf]
    | cons c' m =>
      simp only [Memory.wf, Bool.and_eq_true, decide_eq_true_eq, ih, List.pairwise_cons]
      constructor
      · rintro ⟨⟨h1, h2⟩, ⟨h3, h4⟩, h5⟩
        refine ⟨⟨?_, h3, h4⟩, ?_⟩
        · intro x hx
          rcases List.mem_cons.1 hx with rfl | hx
          · exact h2
          · exact lt_trans h2 (h3 x hx)
        · intro x hx
          rcases List.mem_cons.1 hx with rfl | hx
          · exact h1
          · exact h5 x hx
      · rintro ⟨⟨h1, h3, h4⟩, h5⟩
        exact ⟨⟨h5 c (by simp), h1 c' (by simp)⟩, ⟨h3, h4⟩, fun x hx => h5 x (List.mem_cons_of_mem _ hx)⟩

/-! ### Writing one byte -/

/-- Every entry after a write is the entry written or an entry of before. -/
theorem Memory.mem_write (d : Byte) (m : Memory) (a : Nat) (b : Byte) (c : Host.Cell)
    (h : c ∈ Memory.write d m a b) : c ∈ m ∨ (c = (a, b) ∧ b ≠ d) := by
  induction m with
  | nil =>
    simp only [Memory.write] at h
    split at h <;> simp_all
  | cons x m ih =>
    obtain ⟨x, y⟩ := x
    simp only [Memory.write] at h
    split at h
    · split at h
      · exact .inl h
      · rcases List.mem_cons.1 h with rfl | h
        · exact .inr ⟨rfl, ‹_›⟩
        · exact .inl h
    · split at h
      · split at h
        · exact .inl (List.mem_cons_of_mem _ h)
        · rcases List.mem_cons.1 h with rfl | h
          · exact .inr ⟨rfl, ‹_›⟩
          · exact .inl (List.mem_cons_of_mem _ h)
      · rcases List.mem_cons.1 h with rfl | h
        · exact .inl (by simp)
        · rcases ih h with h | h
          · exact .inl (List.mem_cons_of_mem _ h)
          · exact .inr h

/-- A write keeps the canonical form. -/
theorem Memory.write_wf (d : Byte) (m : Memory) (a : Nat) (b : Byte) (h : Memory.wf d m = true) :
    Memory.wf d (Memory.write d m a b) = true := by
  rw [Memory.wf_iff] at *
  obtain ⟨hp, hd⟩ := h
  refine ⟨?_, fun c hc => ?_⟩
  · clear hd
    induction m with
    | nil => simp only [Memory.write]; split <;> simp
    | cons x m ih =>
      obtain ⟨x, y⟩ := x
      rw [List.pairwise_cons] at hp
      simp only [Memory.write]
      split
      · split
        · exact List.pairwise_cons.2 hp
        · refine List.pairwise_cons.2 ⟨fun c hc => ?_, List.pairwise_cons.2 hp⟩
          rcases List.mem_cons.1 hc with rfl | hc
          · assumption
          · exact lt_trans ‹a < x› (hp.1 c hc)
      · split
        · split
          · exact hp.2
          · rename_i h _
            subst h
            exact List.pairwise_cons.2 ⟨fun c hc => hp.1 c hc, hp.2⟩
        · refine List.pairwise_cons.2 ⟨fun c hc => ?_, ih hp.2⟩
          rcases Memory.mem_write d m a b c hc with hc | ⟨rfl, _⟩
          · exact hp.1 c hc
          · show x < a
            omega
  · rcases Memory.mem_write d m a b c hc with hc | ⟨rfl, hb⟩
    · exact hd c hc
    · exact hb

/-- A write leaves every other address alone. -/
theorem Memory.read_write_other (d : Byte) (m : Memory) (a a' : Nat) (b : Byte) (h : a' ≠ a) :
    Memory.read d (Memory.write d m a b) a' = Memory.read d m a' := by
  induction m with
  | nil => simp only [Memory.write]; split <;> simp [Memory.read, h]
  | cons x m ih =>
    obtain ⟨x, y⟩ := x
    simp only [Memory.write]
    split
    · split
      · rfl
      · simp [Memory.read, h]
    · split
      · rename_i hx
        subst hx
        split <;> simp [Memory.read, h]
      · simp [Memory.read, ih]

/-- An address below every listed one reads as an unlisted one. -/
theorem Memory.read_below (d : Byte) (m : Memory) (a : Nat) (h : ∀ c ∈ m, a < c.1) : Memory.read d m a = d := by
  induction m with
  | nil => rfl
  | cons x m ih =>
    have := h x (by simp)
    rw [Memory.read, if_neg (by omega)]
    exact ih fun c hc => h c (List.mem_cons_of_mem _ hc)

/-- A read after a write to the same address gives the byte written. -/
theorem Memory.read_write_same (d : Byte) (m : Memory) (a : Nat) (b : Byte) (h : Memory.wf d m = true) :
    Memory.read d (Memory.write d m a b) a = b := by
  rw [Memory.wf_iff] at h
  obtain ⟨hp, -⟩ := h
  induction m with
  | nil => simp only [Memory.write]; split <;> simp_all [Memory.read]
  | cons x m ih =>
    obtain ⟨x, y⟩ := x
    rw [List.pairwise_cons] at hp
    simp only [Memory.write]
    split
    · split
      · rename_i hb
        rw [hb]
        refine Memory.read_below d _ a fun c hc => ?_
        rcases List.mem_cons.1 hc with rfl | hc
        · assumption
        · exact lt_trans ‹a < x› (hp.1 c hc)
      · simp [Memory.read]
    · split
      · split
        · rename_i hx hb
          rw [hb]
          exact Memory.read_below d _ a fun c hc => hx ▸ hp.1 c hc
        · simp [Memory.read]
      · rename_i hx
        rw [Memory.read, if_neg hx]
        exact ih hp.2

/-! ### Writing many bytes, clearing, programming and erasing -/

/-- Writing bytes one after another keeps the canonical form. -/
theorem Memory.writeAll_wf (d : Byte) (l : List Byte) (m : Memory) (a : Nat) (h : Memory.wf d m = true) :
    Memory.wf d (Memory.writeAll d m a l) = true := by
  induction l generalizing m a with
  | nil => exact h
  | cons b l ih => exact ih _ _ (Memory.write_wf d m a b h)

/-- Clearing a range keeps the canonical form. -/
theorem Memory.clear_wf (d : Byte) (lo n : Nat) (m : Memory) (h : Memory.wf d m = true) :
    Memory.wf d (Memory.clear lo n m) = true := by
  rw [Memory.wf_iff] at *
  exact ⟨h.1.filter _, fun c hc => h.2 c (List.mem_filter.1 hc).1⟩

/-- Clearing a range makes it read as unlisted and leaves the rest alone. -/
theorem Memory.read_clear (d : Byte) (lo n : Nat) (m : Memory) (a : Nat) :
    Memory.read d (Memory.clear lo n m) a = if lo ≤ a ∧ a < lo + n then d else Memory.read d m a := by
  induction m with
  | nil => simp [Memory.clear, Memory.read]
  | cons x m ih =>
    obtain ⟨x, y⟩ := x
    simp only [Memory.clear, List.filter_cons] at ih ⊢
    by_cases hx : x < lo ∨ lo + n ≤ x
    · rw [if_pos (by simpa using hx)]
      simp only [Memory.read, ih]
      by_cases ha : a = x
      · subst ha; rw [if_pos rfl, if_neg (by omega), if_pos rfl]
      · simp [ha]
    · rw [if_neg (by simpa using hx), ih]
      simp only [Memory.read]
      by_cases ha : a = x
      · subst ha; rw [if_pos (by omega), if_pos (by omega)]
      · simp [ha]

/-- Programming a byte keeps the canonical form of the flash. -/
theorem flashProgram_wf (m : Memory) (a : Nat) (b : Byte) (h : Memory.wf Config.erasedByte m = true) :
    Memory.wf Config.erasedByte (flashProgram m a b) = true := Memory.write_wf _ _ _ _ h

/-- Programming bytes keeps the canonical form of the flash. -/
theorem flashProgramAll_wf (l : List Byte) (m : Memory) (a : Nat) (h : Memory.wf Config.erasedByte m = true) :
    Memory.wf Config.erasedByte (flashProgramAll m a l) = true := by
  induction l generalizing m a with
  | nil => exact h
  | cons b l ih => exact ih _ _ (flashProgram_wf m a b h)

/-- Programming bytes leaves every address outside them alone. -/
theorem flashProgramAll_other (l : List Byte) (m : Memory) (a a' : Nat) (h : a' < a ∨ a + l.length ≤ a') :
    Memory.read Config.erasedByte (flashProgramAll m a l) a' = Memory.read Config.erasedByte m a' := by
  induction l generalizing m a with
  | nil => rfl
  | cons b l ih =>
    simp only [List.length_cons] at h
    rw [flashProgramAll, ih _ _ (by omega), flashProgram, Memory.read_write_other _ _ _ _ _ (by omega)]

/-- A programmed byte is what it was with the bits that are clear in the value programmed cleared (R150). -/
theorem flashProgramAll_at (l : List Byte) (m : Memory) (a i : Nat) (hi : i < l.length)
    (h : Memory.wf Config.erasedByte m = true) :
    Memory.read Config.erasedByte (flashProgramAll m a l) (a + i) =
      Memory.read Config.erasedByte m (a + i) &&& l[i] := by
  induction l generalizing m a i with
  | nil => simp at hi
  | cons b l ih =>
    rw [flashProgramAll]
    cases i with
    | zero =>
      rw [flashProgramAll_other _ _ _ _ (by omega)]
      simpa [flashProgram] using Memory.read_write_same _ m a _ h
    | succ i =>
      have e : a + (i + 1) = a + 1 + i := by omega
      rw [e, ih _ _ _ (by simpa using hi) (flashProgram_wf m a b h), flashProgram,
        Memory.read_write_other _ _ _ _ _ (by omega)]
      simp

/-- An erase keeps the canonical form of the flash. -/
theorem flashErase_wf (m : Memory) (k : Fin 4) (l : List (Nat × Byte)) (h : Memory.wf Config.erasedByte m = true) :
    Memory.wf Config.erasedByte (flashErase m k l) = true := by
  have aux : ∀ (l : List (Nat × Byte)) (m : Memory), Memory.wf Config.erasedByte m = true →
      Memory.wf Config.erasedByte (l.foldl (fun m c => if c.1 < Config.sectorBytes
        then Memory.write Config.erasedByte m (k.val * Config.sectorBytes + c.1) c.2 else m) m) = true := by
    intro l
    induction l with
    | nil => exact fun _ h => h
    | cons c l ih =>
      intro m h
      refine ih _ ?_
      dsimp only
      split
      · exact Memory.write_wf _ _ _ _ h
      · exact h
  exact aux l _ (Memory.clear_wf _ _ _ _ h)

/-- An erase leaves every address outside its sector alone. -/
theorem flashErase_other (m : Memory) (k : Fin 4) (l : List (Nat × Byte)) (a : Nat)
    (h : a < k.val * Config.sectorBytes ∨ (k.val + 1) * Config.sectorBytes ≤ a) :
    Memory.read Config.erasedByte (flashErase m k l) a = Memory.read Config.erasedByte m a := by
  have aux : ∀ (l : List (Nat × Byte)) (m : Memory),
      Memory.read Config.erasedByte (l.foldl (fun m c => if c.1 < Config.sectorBytes
        then Memory.write Config.erasedByte m (k.val * Config.sectorBytes + c.1) c.2 else m) m) a =
        Memory.read Config.erasedByte m a := by
    intro l
    induction l with
    | nil => exact fun _ => rfl
    | cons c l ih =>
      intro m
      rw [List.foldl_cons, ih]
      split
      · refine Memory.read_write_other _ _ _ _ _ ?_
        rename_i hc
        simp only [Config.sectorBytes] at h hc ⊢
        omega
      · rfl
  rw [flashErase, aux, Memory.read_clear, if_neg]
  simp only [Config.sectorBytes] at h ⊢
  omega

/-- A verified erase leaves every byte of its sector erased (R157). -/
theorem flashErase_clean (m : Memory) (k : Fin 4) (a : Nat) (h1 : k.val * Config.sectorBytes ≤ a)
    (h2 : a < (k.val + 1) * Config.sectorBytes) :
    Memory.read Config.erasedByte (flashErase m k []) a = Config.erasedByte := by
  rw [flashErase, List.foldl_nil, Memory.read_clear, if_pos]
  simp only [Config.sectorBytes] at h1 h2 ⊢
  omega

end Sys2Proof.Machine
end

