-- ==== Sys2Proof/Laws/State.lean ====
section
/-! SUPPORT. One lemma per field per update of one block, each true by unfolding, so that no later proof unfolds a record
update; and what the updates of one element of a table leave at every index. -/

namespace Sys2Proof.Machine

variable (s : State)

/-! ### mapMlc -/

@[simp] theorem State.mapMlc_pending (f : Mlc → Mlc) : (s.mapMlc f).pending = s.pending := rfl
@[simp] theorem State.mapMlc_tb (f : Mlc → Mlc) : (s.mapMlc f).tb = s.tb := rfl
@[simp] theorem State.mapMlc_pins (f : Mlc → Mlc) : (s.mapMlc f).pins = s.pins := rfl
@[simp] theorem State.mapMlc_mlc (f : Mlc → Mlc) : (s.mapMlc f).mlc = f s.mlc := rfl
@[simp] theorem State.mapMlc_jobs (f : Mlc → Mlc) : (s.mapMlc f).jobs = s.jobs := rfl
@[simp] theorem State.mapMlc_smm (f : Mlc → Mlc) : (s.mapMlc f).smm = s.smm := rfl
@[simp] theorem State.mapMlc_ru (f : Mlc → Mlc) : (s.mapMlc f).ru = s.ru := rfl
@[simp] theorem State.mapMlc_presses (f : Mlc → Mlc) : (s.mapMlc f).presses = s.presses := rfl
@[simp] theorem State.mapMlc_mu (f : Mlc → Mlc) : (s.mapMlc f).mu = s.mu := rfl
@[simp] theorem State.mapMlc_store (f : Mlc → Mlc) : (s.mapMlc f).store = s.store := rfl
@[simp] theorem State.mapMlc_au (f : Mlc → Mlc) : (s.mapMlc f).au = s.au := rfl
@[simp] theorem State.mapMlc_zones (f : Mlc → Mlc) : (s.mapMlc f).zones = s.zones := rfl
@[simp] theorem State.mapMlc_choices (f : Mlc → Mlc) : (s.mapMlc f).choices = s.choices := rfl

/-! ### mapSmm -/

@[simp] theorem State.mapSmm_pending (f : Smm → Smm) : (s.mapSmm f).pending = s.pending := rfl
@[simp] theorem State.mapSmm_tb (f : Smm → Smm) : (s.mapSmm f).tb = s.tb := rfl
@[simp] theorem State.mapSmm_pins (f : Smm → Smm) : (s.mapSmm f).pins = s.pins := rfl
@[simp] theorem State.mapSmm_mlc (f : Smm → Smm) : (s.mapSmm f).mlc = s.mlc := rfl
@[simp] theorem State.mapSmm_jobs (f : Smm → Smm) : (s.mapSmm f).jobs = s.jobs := rfl
@[simp] theorem State.mapSmm_smm (f : Smm → Smm) : (s.mapSmm f).smm = f s.smm := rfl
@[simp] theorem State.mapSmm_ru (f : Smm → Smm) : (s.mapSmm f).ru = s.ru := rfl
@[simp] theorem State.mapSmm_presses (f : Smm → Smm) : (s.mapSmm f).presses = s.presses := rfl
@[simp] theorem State.mapSmm_mu (f : Smm → Smm) : (s.mapSmm f).mu = s.mu := rfl
@[simp] theorem State.mapSmm_store (f : Smm → Smm) : (s.mapSmm f).store = s.store := rfl
@[simp] theorem State.mapSmm_au (f : Smm → Smm) : (s.mapSmm f).au = s.au := rfl
@[simp] theorem State.mapSmm_zones (f : Smm → Smm) : (s.mapSmm f).zones = s.zones := rfl
@[simp] theorem State.mapSmm_choices (f : Smm → Smm) : (s.mapSmm f).choices = s.choices := rfl

/-! ### mapRu -/

@[simp] theorem State.mapRu_pending (f : Ru → Ru) : (s.mapRu f).pending = s.pending := rfl
@[simp] theorem State.mapRu_tb (f : Ru → Ru) : (s.mapRu f).tb = s.tb := rfl
@[simp] theorem State.mapRu_pins (f : Ru → Ru) : (s.mapRu f).pins = s.pins := rfl
@[simp] theorem State.mapRu_mlc (f : Ru → Ru) : (s.mapRu f).mlc = s.mlc := rfl
@[simp] theorem State.mapRu_jobs (f : Ru → Ru) : (s.mapRu f).jobs = s.jobs := rfl
@[simp] theorem State.mapRu_smm (f : Ru → Ru) : (s.mapRu f).smm = s.smm := rfl
@[simp] theorem State.mapRu_ru (f : Ru → Ru) : (s.mapRu f).ru = f s.ru := rfl
@[simp] theorem State.mapRu_presses (f : Ru → Ru) : (s.mapRu f).presses = s.presses := rfl
@[simp] theorem State.mapRu_mu (f : Ru → Ru) : (s.mapRu f).mu = s.mu := rfl
@[simp] theorem State.mapRu_store (f : Ru → Ru) : (s.mapRu f).store = s.store := rfl
@[simp] theorem State.mapRu_au (f : Ru → Ru) : (s.mapRu f).au = s.au := rfl
@[simp] theorem State.mapRu_zones (f : Ru → Ru) : (s.mapRu f).zones = s.zones := rfl
@[simp] theorem State.mapRu_choices (f : Ru → Ru) : (s.mapRu f).choices = s.choices := rfl

/-! ### mapMu -/

@[simp] theorem State.mapMu_pending (f : Mu → Mu) : (s.mapMu f).pending = s.pending := rfl
@[simp] theorem State.mapMu_tb (f : Mu → Mu) : (s.mapMu f).tb = s.tb := rfl
@[simp] theorem State.mapMu_pins (f : Mu → Mu) : (s.mapMu f).pins = s.pins := rfl
@[simp] theorem State.mapMu_mlc (f : Mu → Mu) : (s.mapMu f).mlc = s.mlc := rfl
@[simp] theorem State.mapMu_jobs (f : Mu → Mu) : (s.mapMu f).jobs = s.jobs := rfl
@[simp] theorem State.mapMu_smm (f : Mu → Mu) : (s.mapMu f).smm = s.smm := rfl
@[simp] theorem State.mapMu_ru (f : Mu → Mu) : (s.mapMu f).ru = s.ru := rfl
@[simp] theorem State.mapMu_presses (f : Mu → Mu) : (s.mapMu f).presses = s.presses := rfl
@[simp] theorem State.mapMu_mu (f : Mu → Mu) : (s.mapMu f).mu = f s.mu := rfl
@[simp] theorem State.mapMu_store (f : Mu → Mu) : (s.mapMu f).store = s.store := rfl
@[simp] theorem State.mapMu_au (f : Mu → Mu) : (s.mapMu f).au = s.au := rfl
@[simp] theorem State.mapMu_zones (f : Mu → Mu) : (s.mapMu f).zones = s.zones := rfl
@[simp] theorem State.mapMu_choices (f : Mu → Mu) : (s.mapMu f).choices = s.choices := rfl

/-! ### mapStore -/

@[simp] theorem State.mapStore_pending (f : Store → Store) : (s.mapStore f).pending = s.pending := rfl
@[simp] theorem State.mapStore_tb (f : Store → Store) : (s.mapStore f).tb = s.tb := rfl
@[simp] theorem State.mapStore_pins (f : Store → Store) : (s.mapStore f).pins = s.pins := rfl
@[simp] theorem State.mapStore_mlc (f : Store → Store) : (s.mapStore f).mlc = s.mlc := rfl
@[simp] theorem State.mapStore_jobs (f : Store → Store) : (s.mapStore f).jobs = s.jobs := rfl
@[simp] theorem State.mapStore_smm (f : Store → Store) : (s.mapStore f).smm = s.smm := rfl
@[simp] theorem State.mapStore_ru (f : Store → Store) : (s.mapStore f).ru = s.ru := rfl
@[simp] theorem State.mapStore_presses (f : Store → Store) : (s.mapStore f).presses = s.presses := rfl
@[simp] theorem State.mapStore_mu (f : Store → Store) : (s.mapStore f).mu = s.mu := rfl
@[simp] theorem State.mapStore_store (f : Store → Store) : (s.mapStore f).store = f s.store := rfl
@[simp] theorem State.mapStore_au (f : Store → Store) : (s.mapStore f).au = s.au := rfl
@[simp] theorem State.mapStore_zones (f : Store → Store) : (s.mapStore f).zones = s.zones := rfl
@[simp] theorem State.mapStore_choices (f : Store → Store) : (s.mapStore f).choices = s.choices := rfl

/-! ### mapAu -/

@[simp] theorem State.mapAu_pending (f : Au → Au) : (s.mapAu f).pending = s.pending := rfl
@[simp] theorem State.mapAu_tb (f : Au → Au) : (s.mapAu f).tb = s.tb := rfl
@[simp] theorem State.mapAu_pins (f : Au → Au) : (s.mapAu f).pins = s.pins := rfl
@[simp] theorem State.mapAu_mlc (f : Au → Au) : (s.mapAu f).mlc = s.mlc := rfl
@[simp] theorem State.mapAu_jobs (f : Au → Au) : (s.mapAu f).jobs = s.jobs := rfl
@[simp] theorem State.mapAu_smm (f : Au → Au) : (s.mapAu f).smm = s.smm := rfl
@[simp] theorem State.mapAu_ru (f : Au → Au) : (s.mapAu f).ru = s.ru := rfl
@[simp] theorem State.mapAu_presses (f : Au → Au) : (s.mapAu f).presses = s.presses := rfl
@[simp] theorem State.mapAu_mu (f : Au → Au) : (s.mapAu f).mu = s.mu := rfl
@[simp] theorem State.mapAu_store (f : Au → Au) : (s.mapAu f).store = s.store := rfl
@[simp] theorem State.mapAu_au (f : Au → Au) : (s.mapAu f).au = f s.au := rfl
@[simp] theorem State.mapAu_zones (f : Au → Au) : (s.mapAu f).zones = s.zones := rfl
@[simp] theorem State.mapAu_choices (f : Au → Au) : (s.mapAu f).choices = s.choices := rfl

/-! ### mapSlot -/

@[simp] theorem State.mapSlot_pending (i : Fin 64) (f : Slot → Slot) : (s.mapSlot i f).pending = s.pending := rfl
@[simp] theorem State.mapSlot_tb (i : Fin 64) (f : Slot → Slot) : (s.mapSlot i f).tb = s.tb := rfl
@[simp] theorem State.mapSlot_pins (i : Fin 64) (f : Slot → Slot) : (s.mapSlot i f).pins = s.pins := rfl
@[simp] theorem State.mapSlot_mlc (i : Fin 64) (f : Slot → Slot) : (s.mapSlot i f).mlc = s.mlc := rfl
@[simp] theorem State.mapSlot_jobs (i : Fin 64) (f : Slot → Slot) : (s.mapSlot i f).jobs = s.jobs.set i (f s.jobs[i]) := rfl
@[simp] theorem State.mapSlot_smm (i : Fin 64) (f : Slot → Slot) : (s.mapSlot i f).smm = s.smm := rfl
@[simp] theorem State.mapSlot_ru (i : Fin 64) (f : Slot → Slot) : (s.mapSlot i f).ru = s.ru := rfl
@[simp] theorem State.mapSlot_presses (i : Fin 64) (f : Slot → Slot) : (s.mapSlot i f).presses = s.presses := rfl
@[simp] theorem State.mapSlot_mu (i : Fin 64) (f : Slot → Slot) : (s.mapSlot i f).mu = s.mu := rfl
@[simp] theorem State.mapSlot_store (i : Fin 64) (f : Slot → Slot) : (s.mapSlot i f).store = s.store := rfl
@[simp] theorem State.mapSlot_au (i : Fin 64) (f : Slot → Slot) : (s.mapSlot i f).au = s.au := rfl
@[simp] theorem State.mapSlot_zones (i : Fin 64) (f : Slot → Slot) : (s.mapSlot i f).zones = s.zones := rfl
@[simp] theorem State.mapSlot_choices (i : Fin 64) (f : Slot → Slot) : (s.mapSlot i f).choices = s.choices := rfl

/-! ### mapPress -/

@[simp] theorem State.mapPress_pending (p : Fin 16) (f : Press → Press) : (s.mapPress p f).pending = s.pending := rfl
@[simp] theorem State.mapPress_tb (p : Fin 16) (f : Press → Press) : (s.mapPress p f).tb = s.tb := rfl
@[simp] theorem State.mapPress_pins (p : Fin 16) (f : Press → Press) : (s.mapPress p f).pins = s.pins := rfl
@[simp] theorem State.mapPress_mlc (p : Fin 16) (f : Press → Press) : (s.mapPress p f).mlc = s.mlc := rfl
@[simp] theorem State.mapPress_jobs (p : Fin 16) (f : Press → Press) : (s.mapPress p f).jobs = s.jobs := rfl
@[simp] theorem State.mapPress_smm (p : Fin 16) (f : Press → Press) : (s.mapPress p f).smm = s.smm := rfl
@[simp] theorem State.mapPress_ru (p : Fin 16) (f : Press → Press) : (s.mapPress p f).ru = s.ru := rfl
@[simp] theorem State.mapPress_presses (p : Fin 16) (f : Press → Press) : (s.mapPress p f).presses = s.presses.set p (f s.presses[p]) := rfl
@[simp] theorem State.mapPress_mu (p : Fin 16) (f : Press → Press) : (s.mapPress p f).mu = s.mu := rfl
@[simp] theorem State.mapPress_store (p : Fin 16) (f : Press → Press) : (s.mapPress p f).store = s.store := rfl
@[simp] theorem State.mapPress_au (p : Fin 16) (f : Press → Press) : (s.mapPress p f).au = s.au := rfl
@[simp] theorem State.mapPress_zones (p : Fin 16) (f : Press → Press) : (s.mapPress p f).zones = s.zones := rfl
@[simp] theorem State.mapPress_choices (p : Fin 16) (f : Press → Press) : (s.mapPress p f).choices = s.choices := rfl

/-! ### mapZone -/

@[simp] theorem State.mapZone_pending (z : Fin 4) (f : Zone → Zone) : (s.mapZone z f).pending = s.pending := rfl
@[simp] theorem State.mapZone_tb (z : Fin 4) (f : Zone → Zone) : (s.mapZone z f).tb = s.tb := rfl
@[simp] theorem State.mapZone_pins (z : Fin 4) (f : Zone → Zone) : (s.mapZone z f).pins = s.pins := rfl
@[simp] theorem State.mapZone_mlc (z : Fin 4) (f : Zone → Zone) : (s.mapZone z f).mlc = s.mlc := rfl
@[simp] theorem State.mapZone_jobs (z : Fin 4) (f : Zone → Zone) : (s.mapZone z f).jobs = s.jobs := rfl
@[simp] theorem State.mapZone_smm (z : Fin 4) (f : Zone → Zone) : (s.mapZone z f).smm = s.smm := rfl
@[simp] theorem State.mapZone_ru (z : Fin 4) (f : Zone → Zone) : (s.mapZone z f).ru = s.ru := rfl
@[simp] theorem State.mapZone_presses (z : Fin 4) (f : Zone → Zone) : (s.mapZone z f).presses = s.presses := rfl
@[simp] theorem State.mapZone_mu (z : Fin 4) (f : Zone → Zone) : (s.mapZone z f).mu = s.mu := rfl
@[simp] theorem State.mapZone_store (z : Fin 4) (f : Zone → Zone) : (s.mapZone z f).store = s.store := rfl
@[simp] theorem State.mapZone_au (z : Fin 4) (f : Zone → Zone) : (s.mapZone z f).au = s.au := rfl
@[simp] theorem State.mapZone_zones (z : Fin 4) (f : Zone → Zone) : (s.mapZone z f).zones = s.zones.set z (f s.zones[z]) := rfl
@[simp] theorem State.mapZone_choices (z : Fin 4) (f : Zone → Zone) : (s.mapZone z f).choices = s.choices := rfl

/-! ### The element that an update of a table changes, and the others -/

/-- The press changed holds the new record and every other press what it held. -/
theorem State.mapPress_get (p q : Fin 16) (f : Press → Press) :
    (s.mapPress p f).presses[q] = if p = q then f s.presses[p] else s.presses[q] := by
  simp [Vector.getElem_set, Fin.ext_iff]

/-- The slot changed holds the new value and every other slot what it held. -/
theorem State.mapSlot_get (i k : Fin 64) (f : Slot → Slot) :
    (s.mapSlot i f).jobs[k] = if i = k then f s.jobs[i] else s.jobs[k] := by
  simp [Vector.getElem_set, Fin.ext_iff]

/-- The zone changed holds the new record and every other zone what it held. -/
theorem State.mapZone_get (z w : Fin 4) (f : Zone → Zone) :
    (s.mapZone z f).zones[w] = if z = w then f s.zones[z] else s.zones[w] := by
  simp [Vector.getElem_set, Fin.ext_iff]

end Sys2Proof.Machine
end

