-- ==== Sys2Proof/Laws/Ops.lean ====
section
/-! SUPPORT. What the shared operations can do, said once for each: requests and replies, notices, the free choices, the
frames of a transmission, the bytes of MISO, the spool, a write of the store in progress, the accounts, everything
that the alert unit does, losses, and the repair of the ring. -/

namespace Sys2Proof.Machine

/-! ### Requests and replies (R197 to R199) -/

/-- A request that finds the reply queue full is dropped. -/
theorem takeRequest_full (typ tag : Byte) (inScan : Bool) (own : State → Answer) (s : State)
    (h : 8 ≤ s.mlc.replies.length) : takeRequest typ tag inScan own s = s.dropRequest := by
  simp [takeRequest, Config.replyCapacity, h]

/-- A request that the scan does not allow is refused MODE while it runs. -/
theorem takeRequest_scan (typ tag : Byte) (own : State → Answer) (s : State) (h : s.mlc.replies.length < 8)
    (hs : s.scanning = true) : takeRequest typ tag false own s = s.reply typ tag .mode [] := by
  have : ¬ 8 ≤ s.mlc.replies.length := by omega
  simp [takeRequest, Config.replyCapacity, this, hs]

/-- A request that is taken is answered as its owner says. -/
theorem takeRequest_taken (typ tag : Byte) (inScan : Bool) (own : State → Answer) (s : State) (h : s.takes = true) :
    takeRequest typ tag inScan own s = (own s).state.reply typ tag (own s).status (own s).body := by
  obtain ⟨hl, hs⟩ : s.mlc.replies.length < 8 ∧ s.scanning = false := by
    simp only [State.takes, Bool.and_eq_true, Bool.not_eq_true'] at h
    exact ⟨of_decide_eq_true h.1, h.2⟩
  have : ¬ 8 ≤ s.mlc.replies.length := by omega
  simp [takeRequest, Config.replyCapacity, this, hs]

/-- A request that the scan allows is answered as its owner says, whether the scan runs or not. -/
theorem takeRequest_inScan (typ tag : Byte) (own : State → Answer) (s : State) (h : s.mlc.replies.length < 8) :
    takeRequest typ tag true own s = (own s).state.reply typ tag (own s).status (own s).body := by
  have : ¬ 8 ≤ s.mlc.replies.length := by omega
  simp [takeRequest, Config.replyCapacity, this]

/-- Whatever the request: it is dropped, refused MODE in the scan, or answered as its owner says. -/
theorem takeRequest_cases (typ tag : Byte) (inScan : Bool) (own : State → Answer) (s : State) :
    takeRequest typ tag inScan own s = s.dropRequest ∧ 8 ≤ s.mlc.replies.length ∨
      s.mlc.replies.length < 8 ∧
        (takeRequest typ tag inScan own s = s.reply typ tag .mode [] ∧ s.scanning = true ∧ inScan = false ∨
          takeRequest typ tag inScan own s = (own s).state.reply typ tag (own s).status (own s).body) := by
  by_cases h : 8 ≤ s.mlc.replies.length
  · exact .inl ⟨takeRequest_full typ tag inScan own s h, h⟩
  · refine .inr ⟨by omega, ?_⟩
    cases hs : s.scanning <;> cases inScan <;> simp [takeRequest, Config.replyCapacity, h, hs]

/-! ### Notices and attention (R200, R201) -/

@[simp] theorem Mlc.drive_attn (m : Mlc) : m.drive.attn = attnOf m.pendingFlags m.mask := rfl
@[simp] theorem Mlc.drive_pendingFlags (m : Mlc) : m.drive.pendingFlags = m.pendingFlags := rfl
@[simp] theorem Mlc.drive_mask (m : Mlc) : m.drive.mask = m.mask := rfl
@[simp] theorem Mlc.drive_notices (m : Mlc) : m.drive.notices = m.notices := rfl
@[simp] theorem Mlc.drive_replies (m : Mlc) : m.drive.replies = m.replies := rfl
@[simp] theorem Mlc.drive_mode (m : Mlc) : m.drive.mode = m.mode := rfl

/-- A notice queued or dropped sets its kind's flag and touches mask, mode, replies and receiver in no case. -/
theorem Mlc.enqueue_spec (n : Notice) (m : Mlc) :
    (m.enqueue n).pendingFlags = m.pendingFlags ||| n.kind.bit ∧ (m.enqueue n).mask = m.mask ∧
      (m.enqueue n).attn = attnOf (m.enqueue n).pendingFlags m.mask ∧ (m.enqueue n).mode = m.mode ∧
      (m.enqueue n).replies = m.replies ∧ (m.enqueue n).lostRequest = m.lostRequest ∧ (m.enqueue n).rx = m.rx ∧
      (m.enqueue n).discarded = m.discarded ∧
      ((m.enqueue n).notices = m.notices ++ [n] ∧ m.notices.length < 48 ∧ (m.enqueue n).overflow = m.overflow ∨
        (m.enqueue n).notices = m.notices ∧ 48 ≤ m.notices.length ∧ (m.enqueue n).overflow = true) := by
  by_cases h : m.notices.length < 48
  · simp [Mlc.enqueue, Mlc.drive, Config.noticeCapacity, h]
  · simp [Mlc.enqueue, Mlc.drive, Config.noticeCapacity, h]; omega

/-- A notice keeps both queues within their capacity and ATTN# driven. -/
theorem Mlc.enqueue_sound (n : Notice) (m : Mlc) (h : m.notices.length ≤ 48) :
    (m.enqueue n).notices.length ≤ 48 ∧
      (m.enqueue n).attn = attnOf (m.enqueue n).pendingFlags (m.enqueue n).mask := by
  obtain ⟨-, hm, ha, -, -, -, -, -, ⟨hn, hl, -⟩ | ⟨hn, -, -⟩⟩ := Mlc.enqueue_spec n m
  · exact ⟨by rw [hn, List.length_append]; simp; omega, by rw [ha, hm]⟩
  · exact ⟨by rw [hn]; exact h, by rw [ha, hm]⟩

/-! ### Free choices -/

/-- An order that the free choices set holds the same elements. -/
theorem shuffle_perm (f : Nat) (l : List α) (c : Nat) : (shuffle f l c).1.Perm l := by
  fun_induction shuffle f l c with
  | case1 => exact .refl _
  | case2 => exact .refl _
  | case3 => exact .refl _
  | case4 f x y l c i rest c' he ih =>
    have hi : i < (x :: y :: l).length := by
      simp only [List.length_cons]; exact Nat.mod_lt _ (by omega)
    rw [he] at ih
    rw [List.getD_eq_getElem _ _ hi]
    exact (ih.cons _).trans (List.getElem_cons_eraseIdx_perm hi)

/-- A free number is within its bound, and takes nothing but a choice. -/
theorem State.anyUpTo_spec (s : State) (n : Nat) :
    (s.anyUpTo n).1 ≤ n ∧ ∃ c, (s.anyUpTo n).2 = { s with choices := c } := by
  unfold State.anyUpTo
  split
  · exact ⟨Nat.zero_le _, s.choices, rfl⟩
  · exact ⟨Nat.le_of_lt_succ (Nat.mod_lt _ (Nat.succ_pos n)), _, rfl⟩

/-! ### What leaves the work of the part alone -/

/-- `t` differs from `s` at most in the message link, the store, the alert unit, the zones, the free choices and, of a
press, what its holds, feed condition, timers, watch and link output are: time, pins, jobs, spool, routing, accounts,
meters and every press's path, bound job, link, profile and reported fields are those of `s`. -/
structure State.SameWork (s t : State) : Prop where
  pending : t.pending = s.pending
  tb : t.tb = s.tb
  pins : t.pins = s.pins
  jobs : t.jobs = s.jobs
  smm : t.smm = s.smm
  ru : t.ru = s.ru
  mu : t.mu = s.mu
  mode : t.mlc.mode = s.mlc.mode
  press : ∀ q : Fin 16, t.presses[q].path = s.presses[q].path ∧ t.presses[q].bound = s.presses[q].bound ∧
    t.presses[q].link = s.presses[q].link ∧ t.presses[q].profile = s.presses[q].profile ∧
    t.presses[q].applied = s.presses[q].applied ∧ t.presses[q].effective = s.presses[q].effective ∧
    t.presses[q].reported = s.presses[q].reported ∧ t.presses[q].tagCounter = s.presses[q].tagCounter

theorem State.SameWork.refl (s : State) : s.SameWork s :=
  ⟨rfl, rfl, rfl, rfl, rfl, rfl, rfl, rfl, fun _ => ⟨rfl, rfl, rfl, rfl, rfl, rfl, rfl, rfl⟩⟩

/-- A state that agrees on all of these fields whole. -/
theorem State.SameWork.of {s t : State} (h1 : t.pending = s.pending) (h2 : t.tb = s.tb) (h3 : t.pins = s.pins)
    (h4 : t.jobs = s.jobs) (h5 : t.smm = s.smm) (h6 : t.ru = s.ru) (h7 : t.mu = s.mu) (h8 : t.mlc.mode = s.mlc.mode)
    (h9 : t.presses = s.presses) : s.SameWork t :=
  ⟨h1, h2, h3, h4, h5, h6, h7, h8, fun q => by rw [h9]; exact ⟨rfl, rfl, rfl, rfl, rfl, rfl, rfl, rfl⟩⟩

theorem State.SameWork.trans {s t u : State} (a : s.SameWork t) (b : t.SameWork u) : s.SameWork u where
  pending := b.pending.trans a.pending
  tb := b.tb.trans a.tb
  pins := b.pins.trans a.pins
  jobs := b.jobs.trans a.jobs
  smm := b.smm.trans a.smm
  ru := b.ru.trans a.ru
  mu := b.mu.trans a.mu
  mode := b.mode.trans a.mode
  press q := by
    obtain ⟨a1, a2, a3, a4, a5, a6, a7, a8⟩ := a.press q
    obtain ⟨b1, b2, b3, b4, b5, b6, b7, b8⟩ := b.press q
    exact ⟨b1.trans a1, b2.trans a2, b3.trans a3, b4.trans a4, b5.trans a5, b6.trans a6, b7.trans a7, b8.trans a8⟩

/-- A change of one press that keeps its path, bound job, link, profile and reported fields. -/
theorem State.mapPress_sameWork (p : Fin 16) (f : Press → Press) (s : State)
    (h : ∀ pr : Press, (f pr).path = pr.path ∧ (f pr).bound = pr.bound ∧ (f pr).link = pr.link ∧
      (f pr).profile = pr.profile ∧ (f pr).applied = pr.applied ∧ (f pr).effective = pr.effective ∧
      (f pr).reported = pr.reported ∧ (f pr).tagCounter = pr.tagCounter) : s.SameWork (s.mapPress p f) := by
  refine ⟨rfl, rfl, rfl, rfl, rfl, rfl, rfl, rfl, fun q => ?_⟩
  rw [State.mapPress_get]
  split
  · next e => subst e; exact h _
  · exact ⟨rfl, rfl, rfl, rfl, rfl, rfl, rfl, rfl⟩

theorem State.notice_sameWork (k : NoticeKind) (a b : Nat) (d : List Byte) (s : State) : s.SameWork (s.notice k a b d) :=
  { State.SameWork.refl s with mode := (Mlc.enqueue_spec _ s.mlc).2.2.2.1 }

theorem State.markPending_sameWork (p : Fin 16) (s : State) : s.SameWork (s.markPending p) :=
  State.SameWork.of rfl rfl rfl rfl rfl rfl rfl rfl rfl

theorem State.markAll_sameWork (l : List (Fin 16)) (s : State) : s.SameWork (s.markAll l) := by
  induction l generalizing s with
  | nil => exact State.SameWork.refl s
  | cons p l ih => exact (State.markPending_sameWork p s).trans (ih _)

theorem State.send_sameWork (p : Fin 16) (f : FeedFrame) (s : State) : s.SameWork (s.send p f) :=
  State.mapPress_sameWork p _ s fun _ => ⟨rfl, rfl, rfl, rfl, rfl, rfl, rfl, rfl⟩

theorem State.advanceTx_sameWork (p : Fin 16) (s : State) : s.SameWork (s.advanceTx p) := by
  unfold State.advanceTx
  split
  · obtain ⟨c, hc⟩ := (s.anyUpTo_spec (s.dataLeft _)).2
    dsimp only
    rw [hc]
    exact State.SameWork.trans (t := { s with choices := c }) (State.SameWork.of rfl rfl rfl rfl rfl rfl rfl rfl rfl)
      (State.mapPress_sameWork p _ _ fun _ => ⟨rfl, rfl, rfl, rfl, rfl, rfl, rfl, rfl⟩)
  · exact State.SameWork.refl s

theorem State.sendBetween_sameWork (p : Fin 16) (f : FeedFrame) (s : State) : s.SameWork (s.sendBetween p f) :=
  (State.advanceTx_sameWork p s).trans (State.send_sameWork p f _)

theorem State.stopTx_sameWork (p : Fin 16) (s : State) : s.SameWork (s.stopTx p) :=
  (State.advanceTx_sameWork p s).trans
    (State.mapPress_sameWork p _ _ fun _ => ⟨rfl, rfl, rfl, rfl, rfl, rfl, rfl, rfl⟩)

/-- Deriving the feed condition and the unbind timer again touches nothing else. -/
theorem State.refresh_sameWork (p : Fin 16) (s : State) : s.SameWork (s.refresh p) :=
  State.mapPress_sameWork p _ s fun _ => ⟨rfl, rfl, rfl, rfl, rfl, rfl, rfl, rfl⟩

theorem State.setEntry_sameWork (p : Fin 16) (k : AlertKind) (e : Option AlertEntry) (s : State) :
    s.SameWork (s.setEntry p k e) := State.SameWork.of rfl rfl rfl rfl rfl rfl rfl rfl rfl

theorem State.handToZone_sameWork (p : Fin 16) (s : State) : s.SameWork (s.handToZone p) :=
  State.SameWork.of rfl rfl rfl rfl rfl rfl rfl rfl rfl

theorem State.holdBegun_sameWork (p : Fin 16) (s : State) : s.SameWork (s.holdBegun p) :=
  (((State.mapPress_sameWork p (fun pr => { pr with held := true }) s fun _ =>
    ⟨rfl, rfl, rfl, rfl, rfl, rfl, rfl, rfl⟩).trans (State.sendBetween_sameWork p .pause _)).trans (State.markPending_sameWork p _)).trans (State.refresh_sameWork p _)

/-! ### The alert unit (chapter 9) -/

/-- A raise touches no job, queue, account, meter, path or binding. -/
theorem State.raise_sameWork (p : Fin 16) (k : AlertKind) (d : Byte) (s : State) : s.SameWork (s.raise p k d).1 := by
  unfold State.raise
  split
  · exact State.SameWork.refl s
  · split
    · simp only [State.raiseNew]
      refine State.SameWork.trans ?_ (State.notice_sameWork ..)
      refine State.SameWork.trans ?_ (State.handToZone_sameWork ..)
      refine State.SameWork.trans ?_ (State.setEntry_sameWork ..)
      split
      · exact (State.setEntry_sameWork p k _ s).trans (State.holdBegun_sameWork p _)
      · exact State.setEntry_sameWork p k _ s
    · exact ((State.setEntry_sameWork p k _ s).trans (State.handToZone_sameWork p _)).trans
        (State.notice_sameWork ..)

/-- Nor does the end of a condition. -/
theorem State.conditionEnd_sameWork (p : Fin 16) (k : AlertKind) (d : Option Byte) (s : State) :
    s.SameWork (s.conditionEnd p k d) := by
  unfold State.conditionEnd
  split
  · exact State.SameWork.refl s
  · next e _ =>
    have h := State.setEntry_sameWork p k (some ((e.withDetail d).ended s.tb)) s
    dsimp only
    split
    · exact h
    · split
      · exact h.trans (State.handToZone_sameWork p _)
      · exact (h.trans (State.handToZone_sameWork p _)).trans (State.notice_sameWork ..)

/-- Nor do the stall watch and what follows from it. -/
theorem State.raiseStall_sameWork (p : Fin 16) (tag : Half) (s : State) : s.SameWork (s.raiseStall p tag) := by
  unfold State.raiseStall
  dsimp only
  split <;> exact (State.raise_sameWork p .stall 0 s).trans
    (State.mapPress_sameWork p _ _ fun _ => ⟨rfl, rfl, rfl, rfl, rfl, rfl, rfl, rfl⟩)

theorem State.stallAfterLeave_sameWork (p : Fin 16) (w : Bool) (s : State) : s.SameWork (s.stallAfterLeave p w) := by
  have h : ∀ u : State, u.SameWork (u.mapPress p Press.rewatch) := fun u =>
    State.mapPress_sameWork p _ u fun _ => ⟨rfl, rfl, rfl, rfl, rfl, rfl, rfl, rfl⟩
  have h' : s.SameWork (if w then (s.conditionEnd p .stall none).mapPress p fun pr => { pr with stalledTag := none }
      else s) := by
    split
    · exact (State.conditionEnd_sameWork p .stall none s).trans
        (State.mapPress_sameWork p _ _ fun _ => ⟨rfl, rfl, rfl, rfl, rfl, rfl, rfl, rfl⟩)
    · exact State.SameWork.refl s
  unfold State.stallAfterLeave
  dsimp only
  split
  · exact (h'.trans (h _)).trans (State.raiseStall_sameWork p _ _)
  · exact h'.trans (h _)

/-- A frame heard sets the last frame time and may end a silence. -/
theorem State.heard_sameWork (p : Fin 16) (s : State) : s.SameWork (s.heard p) := by
  have h := State.mapPress_sameWork p (fun pr => { pr with lastFrame := some s.tb }) s fun _ =>
    ⟨rfl, rfl, rfl, rfl, rfl, rfl, rfl, rfl⟩
  unfold State.heard
  dsimp only
  split
  · exact h.trans (State.conditionEnd_sameWork p .linkSilent none _)
  · exact h

/-! ### The spool (chapter 2) -/

/-- An allocation takes the head of the free list to the end of the job's chain, or finds nothing free. -/
theorem Smm.allocate_spec (h : Handle) (m : Smm) :
    m.free = [] ∧ m.allocate h = m ∨
      ∃ e rest, m.free = e :: rest ∧ (m.allocate h).free = rest ∧ (m.allocate h).size = m.size ∧
        (m.allocate h).mem = m.mem ∧
        (m.allocate h).slots = m.slots.set h.slot { m.slots[h.slot] with chain := m.slots[h.slot].chain ++ [e] } := by
  unfold Smm.allocate
  cases hf : m.free with
  | nil => exact .inl ⟨rfl, rfl⟩
  | cons e rest => exact .inr ⟨e, rest, rfl, rfl, rfl, rfl, rfl⟩

/-- Storing a byte writes the one address it computes, once the chain reaches the write position. -/
theorem Smm.storeByte_mem (h : Handle) (m : Smm) (b : Byte) :
    (m.storeByte h b).mem = Memory.write Config.unwrittenByte (m.ensure h).mem
      ((m.ensure h).slots[h.slot].addressAt (m.ensure h).slots[h.slot].wpos) b := rfl

theorem Smm.allocate_mem (h : Handle) (m : Smm) : (m.allocate h).mem = m.mem := by
  obtain ⟨-, e⟩ | ⟨_, _, -, -, -, e, -⟩ := Smm.allocate_spec h m
  · rw [e]
  · exact e

theorem Smm.ensure_mem (h : Handle) (m : Smm) : (m.ensure h).mem = m.mem := by
  unfold Smm.ensure
  split
  · rfl
  · exact Smm.allocate_mem h m

/-- Freeing a chain appends it to the free list and empties the slot; the contents of the memory stay. -/
theorem Smm.freeChain_spec (i : Fin 64) (m : Smm) :
    (m.freeChain i).free = m.free ++ m.slots[i].chain ∧ (m.freeChain i).size = m.size ∧ (m.freeChain i).mem = m.mem ∧
      (m.freeChain i).slots = m.slots.set i SlotSpool.empty := ⟨rfl, rfl, rfl, rfl⟩

/-! ### MISO (R198) -/

/-- The bytes of the head reply from the `n`-th on go out in order, and with the last of them it leaves the queue. -/
theorem Mlc.clockOut_reply (m : Mlc) (r : Reply) (l : List Reply) (n k : Nat) (hr : m.replies = r :: l)
    (hm : m.miso = .reply n) (hk : n + (k + 1) = r.frame.length) :
    m.clockOut (k + 1) = (r.frame.drop n, { m with miso := .gap, replies := l }) := by
  induction k generalizing m n with
  | zero =>
    have hd : r.frame.drop n = [byteAt r.frame n] := by
      rw [List.drop_eq_getElem_cons (by omega), List.drop_eq_nil_of_le (by omega), byteAt,
        List.getD_eq_getElem _ _ (by omega)]
    rw [Mlc.clockOut, Mlc.clockOut, Mlc.misoByte, Mlc.clock, hm, hr]
    simp only
    rw [if_neg (by omega), hd]
  | succ k ih =>
    have hd : r.frame.drop n = byteAt r.frame n :: r.frame.drop (n + 1) := by
      rw [List.drop_eq_getElem_cons (by omega), byteAt, List.getD_eq_getElem _ _ (by omega)]
    have hc : m.clock = { m with miso := .reply (n + 1) } := by
      rw [Mlc.clock, hm, hr]
      simp only
      rw [if_pos (by omega)]
    have hb : m.misoByte = byteAt r.frame n := by rw [Mlc.misoByte, hm, hr]
    rw [Mlc.clockOut, hc, ih { m with miso := .reply (n + 1) } (n + 1) hr rfl (by omega), hb, hd]

/-! ### The meter store (chapter 8) -/

/-- `t` differs from `st` at most in what passing slots may change before a write completes: the roles, the write slot, the
counts and the flash, and the operation's own progress. -/
structure Store.SameRecords (st t : Store) : Prop where
  state : t.state = st.state
  failed : t.failed = st.failed
  nextSeq : t.nextSeq = st.nextSeq
  newest : t.newest = st.newest
  victim : t.victim = st.victim
  attempts : t.attempts = st.attempts
  saveOwed : t.saveOwed = st.saveOwed
  marks : t.marks = st.marks
  scan : t.scan = st.scan
  torn : t.torn = st.torn
  erased : t.erased = st.erased
  cause : t.cause = st.cause

theorem Store.SameRecords.refl (st : Store) : st.SameRecords st :=
  ⟨rfl, rfl, rfl, rfl, rfl, rfl, rfl, rfl, rfl, rfl, rfl, rfl⟩

theorem Store.SameRecords.trans {a b c : Store} (x : a.SameRecords b) (y : b.SameRecords c) : a.SameRecords c :=
  ⟨y.1.trans x.1, y.2.trans x.2, y.3.trans x.3, y.4.trans x.4, y.5.trans x.5, y.6.trans x.6, y.7.trans x.7,
    y.8.trans x.8, y.9.trans x.9, y.10.trans x.10, y.11.trans x.11, y.12.trans x.12⟩

theorem Store.moveToSpare_sameRecords (st : Store) : st.SameRecords st.moveToSpare := by
  unfold Store.moveToSpare
  split
  · exact ⟨rfl, rfl, rfl, rfl, rfl, rfl, rfl, rfl, rfl, rfl, rfl, rfl⟩
  · exact .refl st

theorem Store.passSlot_sameRecords (st : Store) (x : Fin 4 × Nat) : st.SameRecords (st.passSlot x) := by
  have h : st.SameRecords { st.voidSlot x with writeSlot := x.2 + 1 } :=
    ⟨rfl, rfl, rfl, rfl, rfl, rfl, rfl, rfl, rfl, rfl, rfl, rfl⟩
  unfold Store.passSlot
  dsimp only
  split
  · exact h.trans (Store.moveToSpare_sameRecords _)
  · exact h

/-- So it is for any number of slots. -/
theorem Store.passAll_sameRecords (l : List (Fin 4 × Nat)) (st : Store) :
    st.SameRecords (l.foldl Store.passSlot st) := by
  induction l generalizing st with
  | nil => exact .refl st
  | cons x l ih => exact (Store.passSlot_sameRecords st x).trans (ih _)

/-- Passing a slot programs it void and nothing else of the flash. -/
theorem Store.passSlot_flash (st : Store) (x : Fin 4 × Nat) :
    (st.passSlot x).flash = flashProgramAll st.flash (slotAddress x.1 x.2) (List.replicate Config.slotBytes 0) := by
  have h : ∀ s : Store, s.moveToSpare.flash = s.flash := by
    intro s
    unfold Store.moveToSpare
    split <;> rfl
  unfold Store.passSlot
  dsimp only
  split
  · rw [h]; simp only [Store.voidSlot]
  · simp only [Store.voidSlot]

/-- Passing slots keeps the canonical form of the flash. -/
theorem Store.passAll_wf (l : List (Fin 4 × Nat)) (st : Store) (h : Memory.wf Config.erasedByte st.flash = true) :
    Memory.wf Config.erasedByte (l.foldl Store.passSlot st).flash = true := by
  induction l generalizing st with
  | nil => exact h
  | cons x l ih =>
    refine ih _ ?_
    rw [Store.passSlot_flash]
    exact flashProgramAll_wf _ _ _ h

/-- A write in progress passes some of its slots and takes a choice at most; with another operation, or none, nothing
happens. -/
theorem State.advanceWrite_spec (s : State) :
    (∃ w n c, s.store.op = some (.write w) ∧ n ≤ w.voids.length ∧
        s.advanceWrite = { s with store := s.store.passSlots n w, choices := c }) ∨
      (∀ w, s.store.op ≠ some (.write w)) ∧ s.advanceWrite = s := by
  unfold State.advanceWrite
  split
  · rename_i w hw
    obtain ⟨h1, c, h2⟩ := State.anyUpTo_spec s w.voids.length
    exact .inl ⟨w, _, c, hw, h1, by dsimp only; rw [h2]; rfl⟩
  · rename_i hn
    exact .inr ⟨hn, rfl⟩

/-- A write that comes some way on leaves the work of the part alone. -/
theorem State.advanceWrite_sameWork (s : State) : s.SameWork s.advanceWrite := by
  obtain ⟨_, _, _, -, -, e⟩ | ⟨-, e⟩ := State.advanceWrite_spec s
  · rw [e]; exact .of rfl rfl rfl rfl rfl rfl rfl rfl rfl
  · rw [e]; exact .refl s

/-! ### What a reset leaves of an operation it cuts off (R150, R162) -/

/-- A byte cut off keeps no bit that was clear, and every bit that its program keeps. -/
theorem cutByte_spec (c : Nat) (old target : Byte) :
    cutByte c old target &&& old = cutByte c old target ∧ old &&& target &&& cutByte c old target = old &&& target := by
  unfold cutByte
  constructor <;> ext i hi <;> simp only [BitVec.getElem_and, BitVec.getElem_or] <;>
    cases old[i] <;> cases target[i] <;> simp

/-- Programs cut off keep the canonical form, leave every address outside them alone and only clear bits. -/
theorem cutProgram_spec (l : List Byte) (m : Memory) (a c : Nat) (h : Memory.wf Config.erasedByte m = true) :
    Memory.wf Config.erasedByte (cutProgram m a c l).1 = true ∧
      (∀ x, x < a ∨ a + l.length ≤ x →
        Memory.read Config.erasedByte (cutProgram m a c l).1 x = Memory.read Config.erasedByte m x) ∧
      ∀ x, Memory.read Config.erasedByte (cutProgram m a c l).1 x &&& Memory.read Config.erasedByte m x =
        Memory.read Config.erasedByte (cutProgram m a c l).1 x := by
  induction l generalizing m a c with
  | nil => exact ⟨h, fun _ _ => rfl, fun _ => BitVec.and_self⟩
  | cons b l ih =>
    obtain ⟨h1, h2, h3⟩ := ih _ (a + 1) (c + 1)
      (Memory.write_wf _ m a (cutByte c (Memory.read Config.erasedByte m a) b) h)
    refine ⟨h1, fun x hx => ?_, fun x => ?_⟩
    · simp only [List.length_cons] at hx
      rw [cutProgram, h2 x (by omega), Memory.read_write_other _ _ _ _ _ (by omega)]
    · rw [cutProgram]
      by_cases hx : x = a
      · subst hx
        rw [h2 x (by omega), Memory.read_write_same _ _ _ _ h]
        exact (cutByte_spec _ _ _).1
      · have := h3 x
        rwa [Memory.read_write_other _ _ _ _ _ hx] at this

/-- A slot is free exactly when each of its bytes reads as erased. -/
theorem slotKindOf_free (m : Memory) (k : Fin 4) (i : Nat) :
    slotKindOf (slotContent m k i) = .free ↔
      ∀ j, j < Config.slotBytes → Memory.read Config.erasedByte m (slotAddress k i + j) = 0xFF := by
  have h : (slotContent m k i).all (fun b => decide (b = 0xFF)) = true ↔
      ∀ j, j < Config.slotBytes → Memory.read Config.erasedByte m (slotAddress k i + j) = 0xFF := by
    simp [slotContent, Memory.readAll]
  rw [← h]
  unfold slotKindOf
  split
  · simp_all
  · split
    · simp_all
    · split <;> simp_all

/-- The mark alone, programmed into a free slot, is torn (R150). -/
theorem markAlone_torn (m : Memory) (k : Fin 4) (i : Nat) (h : Memory.wf Config.erasedByte m = true)
    (hf : slotKindOf (slotContent m k i) = .free) :
    slotKindOf (slotContent (flashProgram m (slotAddress k i) 0xA5) k i) = .torn := by
  have hb := (slotKindOf_free m k i).1 hf
  have e : slotContent (flashProgram m (slotAddress k i) 0xA5) k i =
      (List.range Config.slotBytes).map fun j => if j = 0 then 0xA5 else 0xFF := by
    refine List.map_congr_left fun j hj => ?_
    have hj := hb j (List.mem_range.1 hj)
    unfold flashProgram
    by_cases h0 : j = 0
    · subst h0
      rw [Nat.add_zero, Memory.read_write_same _ _ _ _ h, if_pos rfl]
      rw [Nat.add_zero] at hj
      rw [hj]; rfl
    · rw [Memory.read_write_other _ _ _ _ _ (by omega), hj, if_neg h0]
  rw [e]
  decide

/-- A record cut off in its program leaves a free slot torn, whatever the remnant (R150), and its memory is canonical, has
only bits cleared and is the same outside the slot. -/
theorem cutRecord_spec (w : WriteOp) (m : Memory) (c : Nat) (h : Memory.wf Config.erasedByte m = true) :
    Memory.wf Config.erasedByte (cutRecord w m c).1 = true ∧
      (∀ x, x < slotAddress w.sector w.slot ∨ slotAddress w.sector w.slot + 32 ≤ x →
        Memory.read Config.erasedByte (cutRecord w m c).1 x = Memory.read Config.erasedByte m x) ∧
      (∀ x, Memory.read Config.erasedByte (cutRecord w m c).1 x &&& Memory.read Config.erasedByte m x =
        Memory.read Config.erasedByte (cutRecord w m c).1 x) ∧
      (slotKindOf (slotContent m w.sector w.slot) = .free →
        slotKindOf (slotContent (cutRecord w m c).1 w.sector w.slot) = .torn) := by
  have hl : w.content.length = 32 := by
    simp [WriteOp.content, recordBytes, Counters.bytes, u8, u16, u24, u32, checkBytes]
  obtain ⟨h1, h2, h3⟩ := cutProgram_spec w.content m (slotAddress w.sector w.slot) c h
  rw [hl] at h2
  clear hl
  simp only [cutRecord]
  generalize cutProgram m (slotAddress w.sector w.slot) c w.content = r at *
  by_cases ht : slotKindOf (slotContent r.1 w.sector w.slot) = .torn
  · simp only [if_pos ht]
    exact ⟨h1, h2, h3, fun _ => ht⟩
  · simp only [if_neg ht]
    refine ⟨flashProgram_wf _ _ _ h, fun x hx => ?_, fun x => ?_, markAlone_torn m _ _ h⟩
    · exact Memory.read_write_other _ _ _ _ _ (by omega)
    · unfold flashProgram
      by_cases hx : x = slotAddress w.sector w.slot
      · subst hx
        rw [Memory.read_write_same _ _ _ _ h, BitVec.and_assoc, BitVec.and_comm (0xA5 : Byte), ← BitVec.and_assoc,
          BitVec.and_self]
      · rw [Memory.read_write_other _ _ _ _ _ hx, BitVec.and_self]

/-! ### Accounts (chapter 7) -/

/-- The account changed holds the new record and every other account what it held. -/
theorem State.mapAccount_get (a b : Fin 256) (f : Account → Account) (s : State) :
    (s.mapAccount a f).mu.accounts[b] = if a = b then f s.mu.accounts[a] else s.mu.accounts[b] := by
  simp [State.mapAccount, Vector.getElem_set, Fin.ext_iff]

/-- A release lowers the held amount and nothing else of the accounts, whether it is reported or not. -/
theorem State.release_accounts (a : Fin 256) (c : Nat) (s : State) :
    (s.release a c).mu.accounts = (s.mapAccount a fun ac => { ac with held := ac.held - c }).mu.accounts := by
  unfold State.release
  dsimp only
  split <;> rfl

/-- What the job minimum takes never exceeds the availability, and top-up and shortfall make up what was missing. -/
theorem minimumOf_spec (m charged : Nat) (v : Int) (h : 0 ≤ v) :
    ((minimumOf m charged v).1 : Int) ≤ v ∧ (minimumOf m charged v).1 + (minimumOf m charged v).2 = m - charged := by
  simp only [minimumOf]
  omega

/-! ### Losses (R7) -/

/-- The model's insertion into the reprint list and the place that R7 names agree. -/
theorem insertPair_placed (x : CopySheet) (l : List CopySheet) : insertPair x l = pairPlaced x l := by
  induction l with
  | nil => rfl
  | cons y l ih =>
    have hb : x.before y = !decide (y.copy < x.copy ∨ (y.copy = x.copy ∧ y.sheet ≤ x.sheet)) := by
      rw [CopySheet.before, Bool.eq_iff_iff]
      simp only [Bool.or_eq_true, Bool.and_eq_true, decide_eq_true_eq, Bool.not_eq_true', decide_eq_false_iff_not]
      omega
    by_cases h : y.copy < x.copy ∨ (y.copy = x.copy ∧ y.sheet ≤ x.sheet) <;>
      simp [insertPair, pairPlaced, hb, h] at ih ⊢
    exact ih

/-! ### The scan's repair of the ring (R163) -/

/-- Forcing presses changes the marks alone. -/
theorem Store.forceAll_marks (l : List (Fin 16)) (st : Store) :
    l.foldl Store.force st = { st with marks := (l.foldl Store.force st).marks } := by
  induction l generalizing st with
  | nil => rfl
  | cons p l ih => exact ih (st.force p)

/-- The victim step changes the victim and the marks alone. -/
theorem Store.setVictim_marks (st : Store) :
    st.setVictim = { st with victim := some (nextSector st.active), marks := st.setVictim.marks } :=
  Store.forceAll_marks _ _

/-- The parts of the store that the scan's repair reads and leaves: flash, counts and newest records. -/
structure Store.SameIndex (a b : Store) : Prop where
  flash  : b.flash = a.flash
  counts : b.counts = a.counts
  newest : b.newest = a.newest

theorem Store.restore_sameIndex (st : Store) : st.SameIndex st.restore := by
  have hv : ∀ t : Store, t.SameIndex t.setVictim := fun t => by
    rw [Store.setVictim_marks]; exact ⟨rfl, rfl, rfl⟩
  have hf : st.SameIndex st.ring.scanFill := by
    rw [Store.scanFill]
    split
    · have hm : st.SameIndex st.ring.moveToSpare := by
        rw [Store.moveToSpare]; split <;> exact ⟨rfl, rfl, rfl⟩
      exact ⟨(hv _).flash.trans hm.flash, (hv _).counts.trans hm.counts, (hv _).newest.trans hm.newest⟩
    · exact ⟨rfl, rfl, rfl⟩
  rw [Store.restore, Store.victimStep]
  split
  · exact ⟨(hv _).flash.trans hf.flash, (hv _).counts.trans hf.counts, (hv _).newest.trans hf.newest⟩
  · exact ⟨hf.flash, hf.counts, hf.newest⟩

theorem Store.clearNext_sameIndex (l : List (Fin 4)) (st : Store) : st.SameIndex (st.clearNext l) :=
  match l with
  | [] => st.restore_sameIndex
  | _ :: _ => ⟨rfl, rfl, rfl⟩

/-- The end of the scan's reading leaves the flash, and counts every sector by its slots. -/
theorem State.readDone_index (s : State) : s.readDone.store.flash = s.store.flash ∧
    s.readDone.store.counts = Vector.ofFn s.store.countSector := by
  have h := Store.clearNext_sameIndex (s.store.classify.toClear) s.store.classify
  exact ⟨h.flash, h.counts⟩

/-- A sector's count of free slots is the number of slots that are free. -/
theorem Store.countSector_free (st : Store) (k : Fin 4) :
    (st.countSector k).free = (List.range 256).countP (st.freeAt k) := by
  suffices h : ∀ (l : List Nat) (c : SlotCounts),
      (l.foldl (fun c i => c.more (st.kindAt k i)) c).free = c.free + l.countP (st.freeAt k) by
    exact (h _ _).trans (Nat.zero_add _)
  intro l
  induction l with
  | nil => intro c; rfl
  | cons i l ih =>
    intro c
    rw [List.foldl_cons, ih, List.countP_cons, Store.freeAt]
    cases st.kindAt k i <;> (simp only [SlotCounts.more, reduceCtorEq, decide_true, decide_false, if_true, if_false, Bool.false_eq_true]; omega)

/-- After the scan's reading a sector counts as erased exactly when every slot of it is free. -/
theorem State.readDone_erased (s : State) (k : Fin 4) :
    s.readDone.store.counts[k].free = 256 ↔ ∀ i, i < 256 → s.store.freeAt k i = true := by
  have h : s.readDone.store.counts[k].free = (List.range 256).countP (s.store.freeAt k) := by
    rw [s.readDone_index.2, ← Store.countSector_free]
    simp
  have hc := List.countP_eq_length (p := s.store.freeAt k) (l := List.range 256)
  rw [List.length_range] at hc
  rw [h, hc]
  simp only [List.mem_range]

end Sys2Proof.Machine
end

