-- ==== Sys2Proof/Tests/Slice0.lean ====
section
/-! SUPPORT. The model's own tests: the checks of WellFormed, effects worked out by hand from the manual, and for every
obligation with hypotheses a state and operands that meet them. -/

namespace Sys2Proof.Tests

-- One theorem at a time: each thread that waits for the kernel holds its stack, and together they fill the memory.
set_option Elab.async false

open Sys2Proof.Machine

/-! ### States to test on -/

/-- The part after a hardware reset whose scan has ended. -/
def ready : State := { State.reset with store := { State.reset.store with state := .idle, scan := none } }

/-- `ready` in RUN, a while after reset. -/
def running : State := { ready with tb := 1000000, mlc := { ready.mlc with mode := .run } }

/-- A closed color duplex job of three sheets, bound to press 0, its cursor on the last sheet. -/
def job : Job :=
  { state := .active, account := 0, key := 0x11, label := [0x41], ink := .color, sides := .duplex, grade := 1,
    copies := 1, urgent := false, jam := .reprint, stream := false, filter := 0, cls := 0, sheets := 3, closed := true,
    openSheet := none, press := some 0, cursor := .next 1 3, reprint := [], delivered := 0, faces := 0, lost := 0,
    charged := 0, coming := none, endRecord := none, openedAt := 1, endedAt := none }

/-- Its handle: slot 0, generation 1. -/
def handle : Handle := { slot := 0, gen := 1 }

/-- A complete sheet of one face of 100 bytes, from the start of extent 0. -/
def sheet : SheetRecord :=
  { complete := true, face1 := ⟨.mono, 0, 100⟩, face2 := none, start := some ⟨0, 0⟩, received := 100 }

/-- A path entry of that job with a charge of 15. -/
def entry (tag : Half) (st : EntryState) : PathEntry :=
  { tag, job := handle, pair := ⟨1, 1⟩, ink1 := .mono, ink2 := none, charge := 15, account := 0, dispatched := 5,
    takenAt := if st = .taken then some 9 else none, state := st }

/-- An ONLINE press with window 4, heard from 100 ms ago, that may be given `job`. -/
def press : Press :=
  { Press.fresh 0 with
    link := .online, effective := some ⟨true, true, 0xFF⟩, applied := some 4, lastFrame := some 999900,
    reported := some { model := Vector.replicate 16 0x20, serial := Vector.replicate 12 0x20,
                       caps := ⟨true, true, 0xFF⟩, announced := 4 } }

/-- That press FEEDING `job` with two sheets in its path. -/
def feeder : Press :=
  { press with
    bound := some handle, path := [entry 1 .taken, entry 2 .sent], tagCounter := 3, runStall := some 20,
    runUnbind := some 120 }

/-- An alert entry in a state, raised with a mode. -/
def alert (m : AlertMode) (st : AlertState) : AlertEntry :=
  { mode := m, retry := 10, state := st, detail := 0, raisedAt := 7, occurrences := 1,
    deadline := if st = .retryWait then some 900000 else none, acked := false }

/-- `s` with a press record at press 0. -/
def withPress (pr : Press) (s : State) : State := s.mapPress 0 fun _ => pr

/-- `s` with a job in slot 0. -/
def withJob (j : Job) (s : State) : State := s.mapSlot 0 fun _ => { gen := 1, job := some j }

/-- `s` with account 0 OPEN, a credit limit and a held amount. -/
def withAccount (limit held : Int) (s : State) : State :=
  s.mapAccount 0 fun _ => { Account.absent with state := .opened, limit, held }

/-- `s` with the spool of slot 0: extent 0 and three complete sheets. -/
def withSpool (s : State) : State :=
  s.mapSmm fun m =>
    { m with
      free := (List.range m.size.extents).tail
      owners := [(0, { handle, position := 0 })]
      slots := m.slots.set 0 { chain := [0], wpos := ⟨0, 300⟩, sheets := [sheet, sheet, sheet] } }

/-- `s` with an alert entry of a kind on press 0. -/
def withAlert (k : AlertKind) (e : AlertEntry) (s : State) : State := s.setEntry 0 k (some e)

/-- `s` in a mode. -/
def inMode (m : Mode) (s : State) : State := s.mapMlc fun x => { x with mode := m }

/-- An AWAITING press whose probe timer is set. -/
def awaiting : Press := { Press.fresh 0 with link := .awaiting, probeDeadline := some 3 }

/-- Press 0 FEEDING `job` in RUN, with two charges of 15 held on account 0. -/
def feeding : State := withPress feeder (withJob job (withAccount 1000 30 (withSpool running)))

/-- `feeding` with another record at press 0. -/
def feedingAs (f : Press → Press) : State := feeding.mapPress 0 f

/-- Press 0 FEEDING `job` with nothing in its path. -/
def emptied : State := withPress { feeder with path := [] } (withJob job (withAccount 1000 0 (withSpool running)))

/-- An upload: job 0/1 OPEN with two sheets in extent 0, and the third declared with 120 bytes when `open_` says so. -/
def upload (open_ : Bool) : State :=
  withJob { job with state := .opened, closed := false, press := none, sheets := 2,
                     openSheet := if open_ then some 3 else none, cursor := .next 1 1 }
    (withAccount 0 0 (running.mapSmm fun m =>
      { m with
        free := (List.range m.size.extents).tail
        owners := [(0, { handle, position := 0 })]
        slots := m.slots.set 0
          { chain := [0], wpos := ⟨0, 65530⟩
            sheets := [sheet, sheet] ++ if open_ then
              [{ sheet with complete := false, face2 := some ⟨.mono, 0, 20⟩, start := none, received := 0 }] else [] } }))

/-- Job 0/1 QUEUED at the head of class 0, with press 0 READY and the insertion reported. -/
def queued : State :=
  (withPress press (withJob { job with state := .queued, press := none, cursor := .next 1 1 }
    (withAccount 1000 0 (withSpool running)))).mapRu fun r => (r.mapEntries 0 fun _ => [⟨handle, false⟩]).report 0

/-- The record of the job in slot 0. -/
def jobIn (s : State) : Job := (s.jobs[(0 : Fin 64)].job).getD job

/-- A plan with every grade at paper 10, mono 5, base 20, rate 2, and two tiers. -/
def plan : Plan :=
  { rows := Vector.replicate 8 ⟨10, 5, 20, 2⟩, t1 := 5, t2 := 0, t3 := 100, d1 := 100, d2 := 700, d3 := 333,
    minimum := 40 }

/-- A press with one TAKEN entry and a reported rise of its account's availability. -/
def waiting (limit : Int) : State :=
  (withPress { feeder with path := [entry 3 .taken] } (withJob job (withAccount limit 15 (withSpool running)))).mapMu
    fun m => { m with plans := m.plans.set 0 plan, rises := [⟨0, 0⟩] }

/-- A store with press 5 forced, press 3 pending and the first slot of ACTIVE torn. -/
def owing : State :=
  running.mapStore fun st =>
    { st with
      marks := (st.marks.set 3 ⟨true, false⟩).set 5 ⟨true, true⟩, spare := some 1
      flash := flashProgramAll [] 0 [0xF0], counts := st.counts.set 0 ⟨255, 0, 0, 1⟩ }

/-- A store writing press 5's record into a slot of ACTIVE, a save owed, press 2 pending when `m` says so. -/
def writing (slot : Nat) (m : Bool) : State :=
  running.mapStore fun st =>
    { st with
      state := .writing, saveOwed := true, spare := some 1, marks := st.marks.set 2 ⟨m, false⟩
      newest := st.newest.set 4 (some ⟨2, 9, 1⟩)
      op := some (.write ⟨5, 17, ⟨1, 2, 3, 4⟩, [(0, slot - 1)], 0, slot, false⟩) }

/-- A store whose write goes to SPARE: the last slot of ACTIVE is still to void. -/
def moving : State :=
  (writing 255 true).mapStore fun st =>
    { st with op := some (.write ⟨5, 17, ⟨1, 2, 3, 4⟩, [(0, 255)], 1, 0, true⟩) }

/-- `owing` with the torn slot last in ACTIVE and the write slot on it. -/
def owingLast : State :=
  owing.mapStore fun st => { st with writeSlot := 255, flash := flashProgramAll [] 8160 [0xF0] }

/-- A store erasing its victim, sector 2, at an attempt. -/
def erasing (n : Nat) : State :=
  running.mapStore fun st =>
    { st with
      state := .erasing, victim := some 2, attempts := n, op := some (.erase 2)
      flash := flashProgramAll [] 16384 [1, 2, 3], counts := st.counts.set 2 ⟨255, 0, 0, 1⟩ }

/-- `erasing` in the start-up scan, in a phase of it. -/
def scanErasing (n : Nat) (ph : ScanPhase) : State :=
  (erasing n).mapStore fun st => { st with state := .scanning, scan := some ph }

/-- The state a step answers. -/
def after (o : Host.Outcome State Fault Refusal) : State :=
  match o with
  | .next s => s
  | _ => State.reset

/-! ### The checks of WellFormed -/

theorem test_wf_long_body : (Instr.identify 1 (List.replicate 2049 0)).wf = false := by decide +kernel
theorem test_wf_whole_body : (Instr.identify 1 (List.replicate 2048 0)).wf = true := by decide +kernel
theorem test_wf_reset_hard_selector : (Instr.resetHard 1 [1] Pins.idle).wf = false := by decide +kernel
theorem test_wf_reset_soft_selector : (Instr.resetSoft 1 [0]).wf = false := by decide +kernel
theorem test_wf_mode_run_selector : (Instr.modeSetRun 1 [1]).wf = false := by decide +kernel
theorem test_wf_mode_quiesce_selector : (Instr.modeSetQuiesce 1 [0]).wf = false := by decide +kernel
theorem test_wf_ack_press_selector : (Instr.alertAckPress 1 [1, 0]).wf = false := by decide +kernel
theorem test_wf_ack_zone_selector : (Instr.alertAckZone 1 [0, 0]).wf = false := by decide +kernel
theorem test_wf_unknown_type : (Instr.unknownRequest 0x10 1 []).wf = false := by decide +kernel
theorem test_wf_bad_length : (Instr.frameBadLength 2048).wf = false := by decide +kernel
theorem test_wf_bad_check : (Instr.frameBadCheck 1 2 [] (crc16 [0, 0, 1, 2])).wf = false := by decide +kernel
theorem test_wf_cs_whole_frame : (Instr.csDeasserted (messageFrame 1 2 [])).wf = false := by decide +kernel
theorem test_wf_fault_tags : (Instr.fault 0 .jam 0 (List.replicate 9 0)).wf = false := by decide +kernel
theorem test_wf_feed_check : (Instr.feedBadCheck 0 0x87 0 [] (crc16 [0x87, 0, 0])).wf = false := by decide +kernel
theorem test_wf_feed_frame : (Instr.feedBadFrame 0 0x87 []).wf = false := by decide +kernel
theorem test_wf_residue : (Instr.storeEraseEnd [(8192, 0)]).wf = false := by decide +kernel

/-! ### Effects worked out in the manual -/

/-- The check of the nine digits, as its polynomial, initial value and order give it (R210). -/
theorem test_crc : crc16 [0x31, 0x32, 0x33, 0x34, 0x35, 0x36, 0x37, 0x38, 0x39] = 0x29B1 := by decide +kernel

/-- The five filters of 3.5. -/
def filters : Ru :=
  let poster : List Byte := [0x50, 0x4F, 0x53, 0x54, 0x45, 0x52]
  let r := ready.ru
  let r := r.mapFilter 2 fun _ => ⟨true, 0xA10000, 0xFF0000, .color, .any, poster, 3, 5⟩
  let r := r.mapFilter 3 fun _ => ⟨false, 0, 0, .any, .any, [], 0, 7⟩
  let r := r.mapFilter 4 fun _ => ⟨true, 0xA10000, 0xFF0000, .any, .duplex, [], 0, 2⟩
  let r := r.mapFilter 9 fun _ => ⟨true, 0, 0, .mono, .any, [0x52, 0x55, 0x53, 0x48], 4, 1⟩
  r.mapFilter 31 fun _ => ⟨true, 0, 0, .any, .any, [], 0, 0⟩

/-- Jobs 2 to 5 of 3.5: labels PO, POSTER, RUSHED and rush. -/
theorem test_routes :
    filters.route 0x12A10033 .color .duplex [0x50, 0x4F] = some 2 ∧
    filters.route 0x12A10033 .mono .duplex [0x50, 0x4F, 0x53, 0x54, 0x45, 0x52] = some 4 ∧
    filters.route 0x00B20000 .mono .simplex [0x52, 0x55, 0x53, 0x48, 0x45, 0x44] = some 9 ∧
    filters.route 0x00B20000 .mono .simplex [0x72, 0x75, 0x73, 0x68] = some 31 := by decide +kernel

/-- 3.6: E, urgent, goes behind C, the last urgent job; D, not urgent, to the tail. -/
theorem test_queue_places :
    let b : QueueEntry := ⟨⟨8, 2⟩, true⟩
    let c : QueueEntry := ⟨⟨11, 1⟩, true⟩
    let d : QueueEntry := ⟨⟨14, 1⟩, false⟩
    let e : QueueEntry := ⟨⟨20, 4⟩, true⟩
    placeEntry d [b, c] = [b, c, d] ∧ placeEntry e [b, c, d] = [b, c, e, d] ∧ placeEntry b [d] = [b, d] := by decide +kernel

/-- 6.7.1 and 6.7.3: 2,375 less 118; 596,605 at half; a one-mu sheet. -/
theorem test_charges :
    let pl : PriceRow → Nat → Plan := fun row d =>
      { Plan.fresh with rows := Vector.replicate 8 row, t1 := 10000, t2 := 50000, t3 := 200000, d1 := d, d2 := 100 }
    (pl ⟨150, 400, 900, 25⟩ 50).charge 1 (.color, 37) (some (.mono, 0)) 25400 = 2257 ∧
    (pl ⟨150, 400, 900, 25⟩ 50).charge 1 (.mono, 0) (some (.mono, 0)) 50000 = 855 ∧
    (pl ⟨65535, 65535, 65535, 2000⟩ 500).charge 0 (.color, 100) (some (.color, 100)) 10000 = 298303 ∧
    (pl ⟨0, 1, 0, 0⟩ 500).charge 0 (.mono, 0) none 10000 = 1 := by decide +kernel

/-- 7.5: a top-up of 1,200 and a shortfall of 800. -/
theorem test_minimum : minimumOf 5000 3000 1200 = (1200, 800) := by decide +kernel

/-- 5.14: a DELIVERED of the third entry loses the two before it into the reprint list in order. -/
theorem test_skip :
    (jobIn (after (exec (.delivered 0 2) (inMode .setup feeding)))).reprint = [⟨1, 1⟩] ∧
      (jobIn (after (exec (.delivered 0 2) (inMode .setup feeding)))).delivered = 1 := by decide +kernel

/-- R153, R150: the record lands in its slot, and the slot passed over is void. -/
theorem test_write :
    let st := (after (exec .storeWriteComplete (writing 1 false))).store
    st.kindAt 0 1 = .record ⟨5, 17, ⟨1, 2, 3, 4⟩⟩ ∧ st.kindAt 0 0 = .void := by decide +kernel

/-- 8.8, R160: a slot with stray bits that is voided leaves the free slots, as which the erase counted it: 1 void slot, the
record, and the others free. -/
theorem test_void_counts :
    let s := (writing 1 false).mapStore fun st => { st with flash := flashProgramAll [] 0 [0x7F] }
    (after (exec .storeWriteComplete s)).store.counts[(0 : Fin 4)] = ⟨254, 1, 1, 0⟩ := by decide +kernel

/-- R194: a body whose length no ZONE_QUERY has is refused LENGTH, whatever its first byte. -/
theorem test_zoneQuery_length :
    (after (exec (.zoneQuery 1 [2, 0, 0]) ready)).mlc.replies.map Reply.body = [[0x02, 0, 0, 0, 0]] ∧
      (after (exec (.zoneQuery 1 [2, 0]) ready)).mlc.replies.map Reply.body = [[0x03, 0, 0, 0, 0]] := by decide +kernel

/-- R34: a chunk that would pass the declared total is refused LENGTH (0x02) and stores nothing. -/
theorem test_chunk_too_long :
    let s := upload true
    (after (exec (.faceData 1 (handle.bytes ++ u16 121 ++ List.replicate 121 1)) s)).smm = s.smm := by decide +kernel

/-! ### States and operands that meet the hypotheses of the statements

Each theorem below is named after the statement whose hypotheses it meets, clause by clause where the clauses differ. -/

/-- A DELIVERED always completes. -/
theorem delivered_next (p : Fin 16) (tag : Half) (s : State) : ∃ t, exec (.delivered p tag) s = .next t := ⟨_, rfl⟩

/-- So does a step that finds it at the front. -/
theorem delivered_step (p : Fin 16) (tag : Half) (s : State) :
    ∃ t, step { s with pending := [.delivered p tag] } = .next t := ⟨_, rfl⟩

/-- A JOB_QUERY answers by its handle request. -/
theorem jobQuery_next (tag : Byte) (body : List Byte) (s : State) :
    exec (.jobQuery tag body) s = .next (takeRequest 0x15 tag false (handleRequest body jobQuery) s) := rfl

/-- `feeding` with a delivery waiting. -/
def stepping : State := { feeding with pending := [.delivered 0 1] }

theorem test_hyps_StepRuns :
    feeding.pending = [] ∧ feeding.store.op = none ∧ (writing 1 false).pending = [] ∧
      (writing 1 false).store.op = some (.write ⟨5, 17, ⟨1, 2, 3, 4⟩, [(0, 0)], 0, 1, false⟩) ∧
      (writing 1 false).memoriesSound ∧ (0 : Nat) ≠ 255 ∧ moving.pending = [] ∧ moving.memoriesSound ∧
      moving.store.op = some (.write ⟨5, 17, ⟨1, 2, 3, 4⟩, [(0, 255)], 1, 0, true⟩) ∧ moving.store.spare = some 1 := by
  unfold State.memoriesSound; decide +kernel

/-- A millisecond with nothing waiting brings up the write that the store owes. -/
theorem test_tick :
    (after (step owing)).tb = 1000001 ∧ (after (step owing)).pending = [.storeWriteBegin] ∧
      (after (step feeding)).pending = [] := by decide +kernel

theorem test_hyps_linkSound :
    stepping.linkSound ∧ ∃ t, step stepping = .next t :=
  ⟨by unfold State.linkSound; decide +kernel, delivered_step 0 1 feeding⟩

theorem test_hyps_memoriesSound :
    stepping.memoriesSound ∧ ∃ t, step stepping = .next t :=
  ⟨by unfold State.memoriesSound; decide +kernel, delivered_step 0 1 feeding⟩

/-- Extent 0 in the chain of slot 0 and the others free. -/
theorem range_split : (List.range 1984).tail ++ [0] |>.Perm (List.range 1984) :=
  List.perm_append_comm.trans (List.Perm.of_eq (by decide +kernel))

theorem test_hyps_extentsSound :
    stepping.extentsSound ∧ ∃ t, step stepping = .next t := by
  refine ⟨?_, delivered_step 0 1 feeding⟩
  have h : stepping.smm.free ++ stepping.smm.chained = (List.range 1984).tail ++ [0] := by decide +kernel
  unfold State.extentsSound
  rw [h]
  exact range_split

theorem test_hyps_metersBounded :
    stepping.metersBounded ∧ ∃ t, step stepping = .next t :=
  ⟨by unfold State.metersBounded; decide +kernel, delivered_step 0 1 feeding⟩

theorem test_hyps_MetersNeverDecrease :
    feeding.metersBounded ∧ (Instr.delivered 0 1).wf = true ∧ mayReset (.delivered 0 1) = false ∧
      Instr.delivered 0 1 ≠ .scanReadDone ∧ ∃ t, exec (.delivered 0 1) feeding = .next t :=
  ⟨by unfold State.metersBounded; decide +kernel, by decide, by decide, by decide, delivered_next 0 1 feeding⟩

theorem test_hyps_heldSound :
    stepping.heldSound ∧ ∃ t, step stepping = .next t :=
  ⟨by unfold State.heldSound State.pathsSound; decide +kernel, delivered_step 0 1 feeding⟩

theorem test_hyps_creditSound :
    stepping.creditSound ∧ ∃ t, step stepping = .next t :=
  ⟨by unfold State.creditSound State.heldSound State.pathsSound; decide +kernel, delivered_step 0 1 feeding⟩

theorem test_hyps_holdsSound :
    stepping.holdsSound ∧ ∃ t, step stepping = .next t :=
  ⟨by unfold State.holdsSound; decide +kernel, delivered_step 0 1 feeding⟩

theorem test_hyps_zonesSound :
    stepping.zonesSound ∧ ∃ t, step stepping = .next t :=
  ⟨by unfold State.zonesSound; decide +kernel, delivered_step 0 1 feeding⟩

theorem test_hyps_frames :
    ([0xB5] : List Byte).length ≤ Config.maxBody ∧
      (∀ k d tags, PressFrame.fault .jam 4 [1, 2] = .fault k d tags → tags.length ≤ 8) ∧
      1 ≤ Config.maxSequence ∧ (⟨999999999, 0, 1, 2⟩ : Counters).inRange = true := by
  refine ⟨by decide, ?_, by decide, by decide⟩
  intro k d tags h
  cases h
  decide

/-- `ready` with 8 replies waiting. -/
def replying : State := ready.mapMlc fun m => { m with replies := List.replicate 8 { typ := 0x81, tag := 0, body := [0] } }

theorem test_hyps_RequestsDroppedOrUnknown :
    requestOf (.identify 5 []) = some (0x01, 5) ∧ 8 ≤ replying.mlc.replies.length ∧
      namesRequest 0x80 = false ∧ 0x80 ≤ (0x80 : Byte).toNat ∧ ready.mlc.replies.length < 8 := by decide +kernel

theorem test_hyps_ScanRefusesRequests :
    requestOf (.jobList 5 [0, 0]) = some (0x16, 5) ∧ refusedInScan (.jobList 5 [0, 0]) = true ∧
      State.reset.store.state = .scanning ∧ State.reset.mlc.replies.length < 8 := by decide +kernel

theorem test_hyps_RefusalsChangeNothing :
    requestOf (.jobQuery 5 [0, 1]) = some (0x15, 5) ∧
      ∃ t r, exec (.jobQuery 5 [0, 1]) ready = .next t ∧ t.mlc.replies = ready.mlc.replies ++ [r] ∧
        r.body = [0x06, 0, 0, 0, 0] :=
  ⟨by decide, _, { typ := 0x95, tag := 5, body := [6, 0, 0, 0, 0] }, jobQuery_next 5 [0, 1] ready, by decide +kernel, rfl⟩

theorem test_hyps_takes :
    ready.takes = true ∧ running.takes = true ∧ feeding.takes = true := by decide +kernel

/-- `feeding` with a number of notices waiting. -/
def noticed (n : Nat) : State :=
  feeding.mapMlc fun m =>
    { m with notices := List.replicate n { kind := .job, subtype := 0, object := 0, time := 0, detail := [] } }

theorem test_hyps_NoticesQueued :
    (noticed 47).mlc.notices.length < 48 ∧ 48 ≤ (noticed 48).mlc.notices.length := by decide +kernel

/-- R200: the 49th notice is dropped, and its kind's flag is set all the same. -/
theorem test_notice_dropped :
    let m := (State.notice .zone 0 0 [] (noticed 48)).mlc
    m.notices.length = 48 ∧ m.overflow = true ∧ m.pendingFlags = 0x10 := by decide +kernel

theorem test_hyps_ModeSetMovesMode :
    running.takes = true ∧ running.mlc.mode = .run ∧ (∀ p : Fin 16, running.presses[p].path = []) ∧
      feeding.mlc.mode = .run ∧ feeding.presses[(0 : Fin 16)].path ≠ [] ∧ ready.mlc.mode = .setup ∧
      ready.presses[(0 : Fin 16)].link ≠ .online := by decide +kernel

theorem test_hyps_PortEventsDiscardAndSend :
    2048 < (2049 : Half).toNat ∧ crc16 (u16 0 ++ [1, 2]) ≠ 0 ∧ ready.mlc.rx = .hunt ∧
      (∀ b ∈ ([0, 1] : List Byte), b ≠ 0xB5) ∧ ([8] : List Byte).length ≤ 1 ∧
      (([] : List Byte).length ≤ 0 + 2 ∧ ([] : List Byte) = []) ∧ ([1, 2] : List Byte).length ≤ 0 + 2 ∧
      ((List.replicate 2050 0 : List Byte).length = 2048 + 2 ∧ ([7] : List Byte).length = 1) ∧
      (RxState.hunt.feedAll (messageFrame 1 2 [])).1 = .hunt ∧ ready.mlc.replies = [] ∧ replying.mlc.replies ≠ [] ∧
      replying.mlc.miso = .reply 0 ∧ (replying.mapMlc fun m => { m with miso := .gap }).mlc.miso = .gap := by
  decide +kernel

/-- R196: where a frame may break off, with what the notice then carries: after one length byte, with the type alone, and
in its check. -/
theorem test_aborted :
    (RxState.hunt.feedAll [0xB5, 0]).1.reached = (none, none) ∧
      (RxState.hunt.feedAll [0xB5, 0, 1, 5]).1.reached = (some 5, none) ∧
      (RxState.hunt.feedAll [0xB5, 0, 0, 5, 6, 9]).1.reached = (some 5, some 6) := by decide +kernel

/-- R198: a gap and the reply behind it, byte after byte, then 0xFF from the empty queue. -/
theorem test_miso :
    (({ ready.mlc with miso := .gap, replies := [⟨0x81, 7, [0]⟩] } : Mlc).clockOut 11).1 =
      0xFF :: 0xB5 :: 0 :: 1 :: 0x81 :: 7 :: 0 :: u16 (crc16 [0, 1, 0x81, 7, 0]).toNat ++ [0xFF, 0xFF] := by
  decide +kernel

/-- Values of a stream job. -/
def values : JobOpenValues :=
  { account := 0, key := 0x11, label := [0x41], ink := .mono, sides := .simplex, grade := 7, copies := 9999,
    urgent := true, jam := .fail, stream := true }

/-- `running` with account 0 and filter 31 enabled. -/
def routed : State := (withAccount 0 0 running).mapRu fun r => r.mapFilter 31 fun f => { f with enabled := true, cls := 2 }

theorem test_hyps_JobOpenTakesSlot :
    routed.takes = true ∧ values.label.length ≤ 24 ∧ 1 ≤ values.copies ∧ values.copies ≤ 9999 ∧
      routed.mu.accounts[values.account].state ≠ .absent ∧ routed.jobs[(0 : Fin 64)].job = none ∧
      (∀ k : Fin 64, k < 0 → routed.jobs[k].job ≠ none) ∧
      routed.ru.filters[(31 : Fin 32)].matchesJob values.key values.ink values.sides values.label = true ∧
      (∀ k : Fin 32, k < 31 →
        routed.ru.filters[k].matchesJob values.key values.ink values.sides values.label = false) ∧
      routed.ru.queues[(2 : Fin 8)].entries.length < routed.ru.queues[(2 : Fin 8)].capacity := by decide +kernel

theorem test_hyps_UrgentJobsPlaced :
    (⟨handle, false⟩ : QueueEntry).urgent = false ∧ (⟨handle, true⟩ : QueueEntry).urgent = true ∧
      (∀ x ∈ [(⟨handle, false⟩ : QueueEntry)], x.urgent = false) := by decide +kernel

theorem test_hyps_LowestMatchingFilterRoutes :
    ∀ i : Fin 32, filters.filters[i].compare ≤ filters.filters[i].pattern.length := by decide +kernel

theorem test_hyps_SheetBeginOpensNextSheet :
    ∀ o : Bool, (upload o).takes = true ∧ (upload o).jobOf handle = some (jobIn (upload o)) ∧
      (jobIn (upload o)).closed = false ∧ (jobIn (upload o)).sides = .duplex ∧ (jobIn (upload o)).sheets < 4096 ∧
      (∀ n, (jobIn (upload o)).openSheet = some n → n = (jobIn (upload o)).sheets + 1 ∧
        ((upload o).smm.sheet? handle.slot n).isSome = true) := by
  intro o
  refine ⟨?_, ?_, ?_, ?_, ?_, ?_⟩
  iterate 5 (cases o <;> decide +kernel)
  cases o
  · intro n h
    have e : (jobIn (upload false)).openSheet = none := by decide +kernel
    rw [e] at h
    cases h
  · intro n h
    have e : (jobIn (upload true)).openSheet = some 3 := by decide +kernel
    rw [e] at h
    cases h
    exact ⟨by decide +kernel, by decide +kernel⟩

/-- `upload` before its first extent: the write position at the end of an empty chain. -/
def fresh (open_ : Bool) : State :=
  (upload open_).mapSmm fun m =>
    { m with
      free := List.range m.size.extents
      owners := []
      slots := m.slots.set 0 { m.slots[0] with chain := [], wpos := ⟨0, 0⟩ } }

/-- Both clauses: 120 bytes from offset 65,530 need another extent, 6 bytes do not. -/
theorem test_hyps_FaceDataStores :
    (upload true).takes = true ∧ (upload true).extentsSound ∧ (upload true).memoriesSound ∧
      (upload true).jobOf handle = some (jobIn (upload true)) ∧ (jobIn (upload true)).closed = false ∧
      (jobIn (upload true)).openSheet = some 3 ∧ (jobIn (upload true)).state ≠ .active ∧
      ((upload true).smm.sheet? handle.slot 3).map (fun r => r.received + 120 ≤ r.total) = some True ∧
      (upload true).smm.slots[handle.slot].wpos.off < 65536 ∧
      (upload true).smm.slots[handle.slot].wpos.pos < (upload true).smm.slots[handle.slot].chain.length ∧
      (upload true).smm.free ≠ [] ∧
      ((fresh true).smm.slots[handle.slot].wpos = ⟨0, 0⟩ ∧ (fresh true).smm.slots[handle.slot].chain = [] ∧
        (fresh true).smm.free ≠ []) := by
  refine ⟨by decide +kernel, ?_, by unfold State.memoriesSound; decide +kernel, by decide +kernel, by decide +kernel,
    by decide +kernel, by decide +kernel, ?_, by decide +kernel, by decide +kernel, by decide +kernel, by decide +kernel⟩
  · have h : (upload true).smm.free ++ (upload true).smm.chained = (List.range 1984).tail ++ [0] := by
      decide +kernel
    unfold State.extentsSound
    rw [h]
    exact range_split
  · have h : (upload true).smm.sheet? handle.slot 3 = some
        { sheet with complete := false, face2 := some ⟨.mono, 0, 20⟩, start := none, received := 0 } := by
      decide +kernel
    rw [h]
    simp [SheetRecord.total, sheet]

/-- `upload false` as a stream job in a state, its cursor behind its last sheet. -/
def stream (st : JobState) (pr : Option (Fin 16)) : State :=
  withJob { jobIn (upload false) with state := st, press := pr, stream := true, copies := 2, cursor := .next 1 3 }
    (upload false)

/-- `stream` behind the last sheet of its last copy, with a reprint list. -/
def streamEnd (st : JobState) (pr : Option (Fin 16)) (l : List CopySheet) : State :=
  withJob { jobIn (stream st pr) with cursor := .next 2 3, reprint := l } (stream st pr)

theorem test_hyps_JobClose :
    (upload false).jobOf handle = some (jobIn (upload false)) ∧ (jobIn (upload false)).closed = false ∧
      (jobIn (upload false)).openSheet = none ∧ 1 ≤ (jobIn (upload false)).sheets ∧
      (jobIn (upload false)).state = .opened ∧ (jobIn (upload false)).stream = false ∧
      (upload false).ru.queues[(jobIn (upload false)).cls].entries.length <
        (upload false).ru.queues[(jobIn (upload false)).cls].capacity ∧
      (stream .queued none).takes = true ∧
      (stream .queued none).jobOf handle = some (jobIn (stream .queued none)) ∧
      (jobIn (stream .queued none)).cursor = .next 1 ((jobIn (stream .queued none)).sheets + 1) ∧
      (jobIn (stream .queued none)).stream = true ∧ (jobIn (stream .active (some 0))).state = .active ∧
      1 < (jobIn (stream .queued none)).copies ∧
      (streamEnd .queued none [⟨1, 1⟩]).jobOf handle = some (jobIn (streamEnd .queued none [⟨1, 1⟩])) ∧
      (jobIn (streamEnd .queued none [⟨1, 1⟩])).cursor =
        .next (jobIn (streamEnd .queued none [⟨1, 1⟩])).copies ((jobIn (streamEnd .queued none [⟨1, 1⟩])).sheets + 1) ∧
      (jobIn (streamEnd .queued none [⟨1, 1⟩])).reprint ≠ [] ∧ (jobIn (streamEnd .queued none [])).reprint = [] ∧
      (jobIn (streamEnd .queued none [])).closed = false ∧ (jobIn (upload false)).cursor = .next 1 1 ∧
      1 ≠ (jobIn (upload false)).sheets + 1 := by decide +kernel

/-- The same job ACTIVE on press 0 outside RUN, one sheet in its path. -/
theorem test_hyps_JobCloseActive :
    let s := inMode .quiescing (withPress feeder (streamEnd .active (some 0) []))
    s.takes = true ∧ s.jobOf handle = some (jobIn s) ∧ (jobIn s).state = .active ∧ (jobIn s).press = some 0 ∧
      s.mlc.mode ≠ .run ∧ (jobIn s).cursor = .next (jobIn s).copies ((jobIn s).sheets + 1) ∧
      s.presses[(0 : Fin 16)].path ≠ [] ∧ (jobIn s).closed = false := by decide +kernel

/-- R11, R15: the stream job with nothing left to send is DONE as its upload closes. -/
theorem test_close_done :
    (jobIn (after (exec (.jobClose 1 handle.bytes) (streamEnd .queued none [])))).state = .done := by decide +kernel

/-- `s` with a fourth sheet of its job half uploaded. -/
def uploading (s : State) : State :=
  (s.mapJob 0 fun j => { j with openSheet := some 4, closed := false }).mapSmm fun m =>
    m.mapSlot 0 fun sp =>
      { sp with
        wpos := ⟨0, 350⟩
        sheets := sp.sheets ++ [{ sheet with complete := false, start := some ⟨0, 300⟩, received := 50 }] }

/-- With an open sheet, and of an ACTIVE job with an empty path in RUN. -/
theorem test_hyps_JobCancelOpenSheet :
    (uploading feeding).takes = true ∧ (jobIn (upload true)).openSheet = some 3 ∧
      (uploading feeding).jobOf handle = some (jobIn (uploading feeding)) ∧
      (jobIn (uploading feeding)).openSheet = some 4 ∧ (uploading feeding).presses[(0 : Fin 16)].path ≠ [] ∧
      emptied.takes = true ∧ emptied.mlc.mode = .run ∧ emptied.jobOf handle = some job ∧ job.state = .active ∧
      emptied.pathCountOf job = 0 ∧ emptied.inNoQueue handle ∧
      (uploading emptied).jobOf handle = some (jobIn (uploading emptied)) ∧ (uploading emptied).inNoQueue handle ∧
      (uploading queued).jobOf handle = some (jobIn (uploading queued)) ∧ (jobIn (uploading queued)).state = .queued := by
  unfold State.inNoQueue; decide +kernel

/-- R33: the open sheet's record goes, and the write position is back where it began. -/
theorem test_cancel_abandons :
    let s := after (exec (.jobCancel 1 handle.bytes) (uploading feeding))
    (jobIn s).state = .ending ∧ (jobIn s).openSheet = none ∧ s.smm.slots[(0 : Fin 64)].wpos = ⟨0, 300⟩ ∧
      s.smm.slots[(0 : Fin 64)].sheets.length = 3 := by decide +kernel

theorem test_hyps_JobCancel :
    (upload false).takes = true ∧ (jobIn (upload false)).press = none ∧ (jobIn (upload false)).delivered = 0 ∧
      feeding.jobOf handle = some job ∧ job.openSheet = none ∧ job.state = .active ∧ job.press = some 0 ∧
      feeding.presses[(0 : Fin 16)].path ≠ [] ∧ queued.jobOf handle = some (jobIn queued) ∧
      (jobIn queued).state = .queued ∧ (jobIn queued).press = none ∧
      (withJob { job with state := .done } ready).jobOf handle = some { job with state := .done } := by decide +kernel

theorem test_hyps_JobReleasedOrRequeued :
    (withJob { job with state := .done } ready).takes = true ∧ emptied.jobOf handle = some job ∧
      emptied.presses[(0 : Fin 16)].path = [] ∧ (inMode .setup emptied).mlc.mode ≠ .run ∧
      emptied.ru.queues[job.cls].entries.length < emptied.ru.queues[job.cls].capacity ∧
      emptied.presses[(0 : Fin 16)].held = false ∧ emptied.mlc.mode = .run ∧
      emptied.presses[(0 : Fin 16)].link = .online ∧ emptied.presses[(0 : Fin 16)].profile.classes = [job.cls] ∧
      emptied.presses[(0 : Fin 16)].allows job = true ∧
      (emptied.mapPress 0 fun p => { p with effective := some ⟨false, true, 0xFF⟩ }).presses[(0 : Fin 16)].allows job = false ∧
      (withPress { feeder with path := [], held := true } emptied).presses[(0 : Fin 16)].held = true := by
  decide +kernel

theorem test_hyps_FiltersAndClasses :
    ready.ru.filters[(0 : Fin 32)].enabled = false ∧ ([1, 2, 3, 4, 5, 6, 7, 8] : List Byte).length ≤ 8 ∧
      ready.ru.queues[(0 : Fin 8)].entries.length ≤ 1 := by decide +kernel

/-- Slot 0 holds a job of generation 1, slot 1 none. -/
theorem test_hyps_JobQueriesReport :
    feeding.takes = true ∧ feeding.jobOf handle = some job ∧ (64 : Byte).toNat = 64 ∧
      feeding.jobs[(0 : Fin 64)].gen = 1 ∧ feeding.jobs[(0 : Fin 64)].job ≠ none ∧
      feeding.jobs[(1 : Fin 64)].job = none := by decide +kernel

/-- R2: the handle is checked before the length of what stands behind it. -/
theorem test_handle_first :
    (longHandleRequest sheetBegin [64, 1] feeding).status = .value ∧
      (handleRequest [1, 1, 9] jobQuery feeding).status = .none ∧
      (handleRequest [0, 1, 9] jobQuery feeding).status = .length := by decide +kernel

/-- R20: JOB_LIST by state set and account: the ACTIVE job of account 0. -/
theorem test_jobList_selects :
    (jobList [4, 0] feeding).body.head? = some 1 ∧ (jobList [2, 0] feeding).body = [0] ∧
      (jobList [0, 1, 0, 0] feeding).body.head? = some 1 ∧ (jobList [4, 1, 0, 3] feeding).body = [0] := by decide +kernel

/-- A profile that PRESS_SET accepts, with another zone than press 0's. -/
def profile : Profile :=
  { classes := [3, 1], caps := ⟨true, false, 0x0F⟩, zone := 2, linkTimeout := 100, stallTime := 120, unbindTime := 0,
    checkpoint := 1000 }

theorem test_hyps_PressSet :
    1 ≤ profile.classes.length ∧ profile.classes.length ≤ 4 ∧ profile.classes.Nodup ∧ profile.caps.grades ≠ 0 ∧
      ready.presses[(0 : Fin 16)].link = .disabled ∧ (withPress awaiting ready).presses[(0 : Fin 16)].link = .awaiting ∧
      (inMode .setup (withPress press running)).presses[(0 : Fin 16)].link = .online ∧ press.bound = none ∧ press.path = [] ∧
      press.lastFrame = some 999900 ∧ reached running.tb (999900 + ms 101) = false ∧
      feeding.presses[(0 : Fin 16)].bound ≠ none := by decide +kernel

theorem test_hyps_PressesEnabledAndDisabled :
    press.link = .online ∧ awaiting.link ≠ .disabled ∧ awaiting.path = [] ∧ awaiting.bound = none ∧
      emptied.presses[(0 : Fin 16)].link ≠ .disabled ∧ emptied.presses[(0 : Fin 16)].path = [] ∧
      emptied.presses[(0 : Fin 16)].bound = some handle ∧ emptied.jobOf handle = some job ∧
      emptied.ru.queues[job.cls].entries.length < emptied.ru.queues[job.cls].capacity ∧
      feeding.presses[(0 : Fin 16)].path ≠ [] := by decide +kernel

/-- `feeding` held by an active LINK_SILENT. -/
def silenced : State := withAlert .linkSilent (alert .retry .active) (feedingAs fun p => { p with held := true })

theorem test_hyps_PressWriteoff :
    silenced.takes = true ∧ silenced.presses[(0 : Fin 16)].link = .online ∧ silenced.silent 0 = true ∧
      silenced.pathsSound ∧ silenced.presses[(0 : Fin 16)].held = true ∧
      silenced.mu.meters[(0 : Fin 16)].live.spoiled ≤ 999999999 ∧
      (∀ e ∈ silenced.presses[(0 : Fin 16)].path, (silenced.jobOf e.job).map Job.press = some (some 0)) ∧
      feeding.silent 0 = false := by
  unfold State.pathsSound; decide +kernel

/-- A state whose path loses or delivers: its job, and in QUIESCING whether other paths hold entries. -/
theorem test_hyps_LossesTell :
    silenced.presses[(0 : Fin 16)].path ≠ [] ∧ (∀ e ∈ silenced.presses[(0 : Fin 16)].path, e.job = handle) ∧
      silenced.jobOf handle = some job ∧ job.press = some 0 ∧ job.state = .active ∧
      (inMode .quiescing silenced).mlc.mode = .quiescing ∧ (inMode .quiescing silenced).silent 0 = true ∧
      (∀ q : Fin 16, q ≠ 0 → (inMode .quiescing silenced).presses[q].path = []) ∧
      ((inMode .quiescing silenced).mapPress 1 fun _ => feeder).presses[(1 : Fin 16)].path ≠ [] ∧
      feeding.jobOf handle = some job ∧ feeding.inNoQueue handle ∧ feeding.mlc.mode = .run ∧
      (∀ e ∈ feeding.presses[(0 : Fin 16)].path, e.job = handle) := by
  unfold State.inNoQueue; decide +kernel

/-- `feeding` with distinct sheets in its path, for a job as given. -/
def losing (j : Job) : State :=
  withJob j (feedingAs fun p => { p with
    path := [{ entry 1 .taken with pair := ⟨1, 3⟩ }, { entry 2 .sent with pair := ⟨1, 1⟩ }] })

/-- R7, R10: losses in any order stand in ascending order in the reprint list. -/
theorem test_loss_reprints :
    let s := after (exec (.fault 0 .jam 0 [1, 2]) (losing job))
    (jobIn s).reprint = [⟨1, 1⟩, ⟨1, 3⟩] ∧ (jobIn s).lost = 2 ∧ (jobIn s).state = .active := by decide +kernel

/-- R10, R14: under FAIL the first loss names the failed sheet, and the last one ends the job FAILED. -/
theorem test_loss_fails :
    let s := after (exec (.fault 0 .jam 0 [2, 1]) (losing { job with jam := .fail }))
    let t := after (exec (.fault 0 .jam 0 [2]) (losing { job with jam := .fail }))
    (jobIn s).state = .failed ∧ (jobIn s).endRecord.map EndRecord.failedSheet = some (some ⟨1, 1⟩) ∧
      (jobIn t).state = .ending ∧ (jobIn t).cursor = .allDispatched := by decide +kernel

theorem test_hyps_PlansAndCharges :
    (∀ g : Fin 8, plan.rows[g].paper < 65536 ∧ plan.rows[g].mono < 65536 ∧ plan.rows[g].base < 65536 ∧
        plan.rows[g].rate ≤ 2000) ∧ plan.t1 < plan.t3 ∧ plan.t2 = 0 ∧ plan.d2 < 65536 ∧
      (waiting 1000).mu.accounts[(0 : Fin 256)].state ≠ .absent ∧ (plan.t3 ≠ 0 ∧ plan.t3 ≤ 100) ∧
      ¬ (plan.t3 ≤ 99) ∧ (plan.t1 ≠ 0 ∧ plan.t1 ≤ 5) := by decide +kernel

/-- The bounds of the stages, at their limits. -/
theorem test_hyps_SheetCharge :
    let pl : Plan := { Plan.fresh with
      rows := Vector.replicate 8 ⟨65535, 65535, 65535, 2000⟩, t1 := 1, d1 := 500, d2 := 500, d3 := 500 }
    (∀ g : Fin 8, pl.rows[g].paper ≤ 65535 ∧ pl.rows[g].mono ≤ 65535 ∧ pl.rows[g].base ≤ 65535 ∧
        pl.rows[g].rate ≤ 2000) ∧ pl.d1 ≤ 500 ∧ pl.d2 ≤ 500 ∧ pl.d3 ≤ 500 ∧ ¬ (pl.t3 ≠ 0) ∧ pl.t1 ≠ 0 ∧ pl.t1 ≤ 1 ∧
      ((.color, 100) : PricedFace).2 ≤ 100 ∧ 0 < pl.t1 ∧ (plan.t2 = 0 ∧ 5 ≤ plan.t1) := by decide +kernel

theorem test_hyps_Accounts :
    feeding.mu.accounts[(1 : Fin 256)].state = .absent ∧ feeding.mu.accounts[(0 : Fin 256)].state ≠ .absent ∧
      0 < feeding.mu.accounts[(0 : Fin 256)].held ∧ (withAccount 5 0 ready).liveJobsOf 0 = [] ∧
      (withAccount 5 0 ready).mu.accounts[(0 : Fin 256)].held ≤ 0 ∧
      0 ≤ (withAccount 5 0 ready).mu.accounts[(0 : Fin 256)].availability := by decide +kernel

theorem test_hyps_MetersReadSaved :
    ready.store.state ≠ .failed ∧ (ready.mapStore fun st => { st with state := .failed }).store.state = .failed ∧
      (65535 : Nat) < 65536 := by decide +kernel

/-- `feeding` held by an active jam, with a stall waiting out its retry time. -/
def alerted : State :=
  withAlert .jam (alert .latched .active)
    (withAlert .stall (alert .retry .retryWait) (feedingAs fun p => { p with held := true }))

theorem test_hyps_EntriesRemoved :
    alerted.holdsSound ∧ alerted.takes = true ∧ alerted.entry 0 .stall = some (alert .retry .retryWait) ∧
      (alert .retry .retryWait).state = .retryWait ∧ (alert .retry .retryWait).deadline = some 900000 ∧
      reached alerted.tb 900000 = true ∧ reached ({ alerted with tb := 899999 } : State).tb 900000 = false ∧
      (2047 : Nat) < 65536 := by
  unfold State.holdsSound; decide +kernel

/-- `feeding` held by that stall alone, which is then the last holding entry to go. -/
def heldOnce : State := withAlert .stall (alert .retry .retryWait) (feedingAs fun p => { p with held := true })

theorem test_hyps_EntriesRemovedHoldEnds :
    heldOnce.holdsSound ∧ heldOnce.takes = true ∧ heldOnce.presses[(0 : Fin 16)].held = true ∧
      heldOnce.entry 0 .stall = some (alert .retry .retryWait) ∧ heldOnce.presses[(0 : Fin 16)].tx = none ∧
      (inMode .setup heldOnce).mlc.mode ≠ .run ∧ (inMode .setup heldOnce).holdsSound := by
  unfold State.holdsSound; decide +kernel

/-- R179, R107: RESUME goes out as that entry's retry delay ends. -/
theorem test_resume :
    let s := after (exec (.retryDeadline 0 .stall) (inMode .setup heldOnce))
    s.presses[(0 : Fin 16)].held = false ∧ s.presses[(0 : Fin 16)].out = [.resume] := by decide +kernel

/-- Both clauses of ALERT_MODE_SET, at the ends of the delay's range. -/
theorem test_hyps_AlertModesSetAndListed :
    alerted.takes = true ∧ 1 ≤ 1 ∧ 600 ≤ 600 ∧ (AlertKind.jam = .jam ∧ AlertMode.ignore = .ignore) ∧
      ¬ ((AlertKind.stall = .jam ∨ AlertKind.stall = .linkSilent) ∧ (AlertMode.ignore = .report ∨ AlertMode.ignore = .ignore)) ∧
      ¬ ((AlertKind.jam = .jam ∨ AlertKind.jam = .linkSilent) ∧ (AlertMode.retry = .report ∨ AlertMode.retry = .ignore)) := by
  decide

theorem test_hyps_ZonesAcknowledged :
    (∀ p ∈ ([0] : List (Fin 16)), ∀ k ∈ AlertKind.all, feeding.entry p k = none) ∧
      alerted.entry 0 .jam ≠ none ∧ (0 : Fin 16) ∈ alerted.members 0 := by decide +kernel

/-- `feeding` with zone 1's button in a state, its deadline reached or not. -/
def button (b : ButtonState) (d : Time) : State := feeding.mapZone 1 fun z => { z with button := b, deadline := some d }

theorem test_hyps_ButtonsDebounced :
    feeding.zones[(1 : Fin 4)].button = .released ∧
      (∀ b ∈ [ButtonState.pressing, .pressed, .releasing], (button b 1000000).zones[(1 : Fin 4)].button = b) ∧
      reached (button .pressing 1000000).tb 1000000 = true ∧ reached (button .pressing 1000001).tb 1000001 = false := by decide +kernel

theorem test_hyps_HelloBringsPressOnline :
    Press.link (Press.fresh 0) = .disabled ∧ (withPress awaiting running).presses[(0 : Fin 16)].link = .awaiting ∧
      (inMode .setup (withPress awaiting running)).mlc.mode ≠ .run ∧ feeding.presses[(0 : Fin 16)].link = .online ∧
      feeding.mu.meters[(0 : Fin 16)].live.spoiled ≤ 999999999 := by decide +kernel

theorem test_hyps_FramesHeardOnlineOnly :
    awaiting.link ≠ .online ∧ feeding.presses[(0 : Fin 16)].link = .online ∧ feeding.silent 0 = false ∧
      silenced.entry 0 .linkSilent = some (alert .retry .active) ∧ (alert .retry .active).state = .active ∧
      (silenced.endedEntry 0 .linkSilent none).isSome = true ∧ parseFeed 0x99 [] = none ∧
      1026 < (1027 : Half).toNat ∧ crc16 (0x87 :: (u16 0 ++ [])) ≠ 0 ∧
      (feeding.mapAu fun a => { a with modes := a.modes.set 9 ⟨.ignore, 1⟩ }).au.modes[(9 : Fin 11)].mode = .ignore := by decide +kernel

theorem test_hyps_WindowAndTaken :
    feeding.presses[(0 : Fin 16)].link = .online ∧ (∃ e ∈ feeding.presses[(0 : Fin 16)].path, e.tag = 2) ∧
      (∀ e ∈ feeding.presses[(0 : Fin 16)].path, e.tag ≠ 9) ∧ (inMode .setup feeding).mlc.mode ≠ .run := by decide +kernel

/-- The last sheet of `job` in flight, outside RUN. -/
def lastSheet : State :=
  inMode .quiescing
    (withPress { feeder with path := [entry 7 .sending], tx := some ⟨7, 0, 3, 0⟩ }
      (withJob { job with cursor := .allDispatched } (withAccount 1000 15 (withSpool running))))

theorem test_hyps_DeliveredSettlesEntry :
    feeding.presses[(0 : Fin 16)].path = [] ++ entry 1 .taken :: [entry 2 .sent] ∧
      feeding.presses[(0 : Fin 16)].path = [entry 1 .taken] ++ entry 2 .sent :: [] ∧
      (feeding.presses[(0 : Fin 16)].path.map PathEntry.tag).Nodup ∧ feeding.metersBounded ∧
      feeding.jobOf (entry 1 .taken).job = some job ∧ job.state = .active ∧ job.cursor ≠ .allDispatched ∧
      lastSheet.presses[(0 : Fin 16)].path = [] ++ entry 7 .sending :: [] ∧
      lastSheet.jobOf (entry 7 .sending).job = some { job with cursor := .allDispatched } ∧ job.closed = true ∧
      job.reprint = [] ∧ job.press = some 0 ∧ lastSheet.mlc.mode ≠ .run ∧ lastSheet.metersBounded ∧
      feeding.presses[(0 : Fin 16)].link = .online ∧ (∀ x ∈ feeding.presses[(0 : Fin 16)].path, x.tag ≠ 9) ∧
      queued.presses[(0 : Fin 16)].link = .online ∧ (∀ x ∈ queued.presses[(0 : Fin 16)].path, x.tag ≠ 1) := by
  unfold State.metersBounded; decide +kernel

/-- `s` with the deliveries counted toward press 0's checkpoint. -/
def counting (n : Nat) (s : State) : State := s.mapMeter 0 fun m => { m with since := n }

/-- The checkpoint on either side of its interval; a job in ENDING, at its last entry and before it; the last sheet in RUN. -/
theorem test_hyps_DeliveredCounts :
    (counting 99 feeding).presses[(0 : Fin 16)].profile.checkpoint ≤ (counting 99 feeding).mu.meters[(0 : Fin 16)].since + 1 ∧
      ¬ (counting 98 feeding).presses[(0 : Fin 16)].profile.checkpoint ≤
        (counting 98 feeding).mu.meters[(0 : Fin 16)].since + 1 ∧
      (feeding.mapAu fun a => { a with modes := a.modes.set 7 ⟨.report, 1⟩ }).au.modes[(7 : Fin 11)].mode = .report ∧
      feeding.mlc.mode ≠ .quiescing ∧
      (losing { job with state := .ending }).jobOf handle = some { job with state := .ending } ∧
      (losing job).presses[(0 : Fin 16)].path.length = 2 ∧
      (∀ x ∈ (losing job).presses[(0 : Fin 16)].path, x.job = handle) ∧
      (inMode .run lastSheet).mlc.mode = .run ∧ (inMode .run lastSheet).inNoQueue (entry 7 .sending).job ∧
      (inMode .run lastSheet).jobOf (entry 7 .sending).job = some { job with cursor := .allDispatched } := by
  unfold State.inNoQueue; decide +kernel

/-- R147: the hundredth sheet makes the mark. -/
theorem test_checkpoint :
    let s := after (exec (.delivered 0 1) (counting 99 feeding))
    s.mu.meters[(0 : Fin 16)].since = 0 ∧ s.store.marks[(0 : Fin 16)].pending = true := by decide +kernel

/-- R14: the last entry of a job in ENDING ends it with its reason; R111: and the part drains. -/
theorem test_ending_ends :
    let s := inMode .quiescing (losing { job with state := .ending, coming := some ⟨.cancelled, none⟩ })
    let t := after (exec (.delivered 0 2) s)
    (jobIn t).state = .cancelled ∧ (jobIn t).lost = 1 ∧ (jobIn t).delivered = 1 ∧ t.mlc.mode = .setup := by
  decide +kernel

theorem test_hyps_FaultRaisesClearEnds :
    feeding.presses[(0 : Fin 16)].link = .online ∧ ([2, 9] : List Half).length ≤ 8 ∧
      (feeding.presses[(0 : Fin 16)].path.map PathEntry.tag).Nodup ∧ feeding.metersBounded ∧
      feeding.entry 0 FaultKind.jam.alert = none ∧ feeding.au.modes[FaultKind.jam.alert.code].mode = .latched ∧
      feeding.holdsSound ∧ (9 : Half) ∈ ([2, 9] : List Half) ∧ ∀ e ∈ feeding.presses[(0 : Fin 16)].path, e.tag ≠ 9 := by
  unfold State.metersBounded State.holdsSound; decide +kernel

/-- A raise without tags: under IGNORE, of a new entry that begins a hold or does not, and of an old one. -/
theorem test_hyps_FaultRaises :
    feeding.silent 0 = false ∧ feeding.mlc.mode ≠ .quiescing ∧ feeding.holdsSound ∧
      (feeding.mapAu fun a => { a with modes := a.modes.set 0 ⟨.ignore, 1⟩ }).au.modes[FaultKind.jam.alert.code].mode =
        .ignore ∧
      feeding.au.modes[FaultKind.jam.alert.code].mode ≠ .ignore ∧
      (feeding.raisedEntry 0 .jam 4).map AlertEntry.mode = some .latched ∧ feeding.presses[(0 : Fin 16)].held = false ∧
      alerted.silent 0 = false ∧ alerted.holdsSound ∧ alerted.entry 0 .jam ≠ none ∧
      (alerted.raisedEntry 0 .jam 4).isSome = true ∧ alerted.entry 0 .doorOpen = none ∧
      alerted.presses[(0 : Fin 16)].held = true ∧ (alerted.raisedEntry 0 .doorOpen 4).isSome = true ∧
      feeding.presses[(0 : Fin 16)].tx = none ∧
      (inMode .run lastSheet).presses[(0 : Fin 16)].tx = some ⟨7, 0, 3, 0⟩ := by
  unfold State.holdsSound; decide +kernel

/-- R106, R148, R182: a jam holds its press, which is sent PAUSE and marked, and the notice says so. -/
theorem test_hold_begins :
    let s := after (exec (.fault 0 .jam 4 []) feeding)
    s.presses[(0 : Fin 16)].held = true ∧ s.presses[(0 : Fin 16)].out = [.pause] ∧
      s.presses[(0 : Fin 16)].cond = some .stopped ∧ s.store.marks[(0 : Fin 16)].pending = true ∧
      s.mlc.notices.map Notice.detail = [[0, 0, 4, 0, 1]] := by decide +kernel

theorem test_hyps_LinkTimersExpire :
    awaiting.link = .awaiting ∧ awaiting.probeDeadline = some 3 ∧ reached running.tb 3 = true ∧
      reached 2 3 = false ∧ press.link = .online ∧ press.lastFrame = some 999900 ∧ feeding.silent 0 = false ∧
      reached 1001900 (999900 + ms press.profile.linkTimeout) = true ∧
      reached 1001899 (999900 + ms press.profile.linkTimeout) = false ∧
      (feedingAs fun p => { p with watch := some ⟨1, 7, false⟩ }).presses[(0 : Fin 16)].stalledTag = none ∧
      reached feeding.tb 7 = true := by decide +kernel

theorem test_hyps_JobsBindAndReturn :
    (0 : Fin 8) ∈ queued.ru.reports ∧ queued.servers 0 = [0] ∧ press.held = false ∧ queued.mlc.mode = .run ∧
      press.profile.classes = [0] ∧ queued.ru.queues[(0 : Fin 8)].entries = ⟨handle, false⟩ :: [] ∧
      queued.jobOf handle = some (jobIn queued) ∧ press.allows (jobIn queued) = true ∧ press.path = [] ∧
      (1 : Fin 8) ∉ queued.ru.reports ∧ emptied.presses[(0 : Fin 16)].bound = some handle ∧
      emptied.jobOf handle = some job ∧ reached emptied.tb 5 = true ∧ reached emptied.tb 2000000 = false ∧
      (emptied.mapRu fun r => { r with queues := r.queues.set 0 { entries := [⟨handle, false⟩], capacity := 1 } }).ru.queues[
        job.cls].capacity ≤ 1 ∧ (inMode .setup emptied).mlc.mode ≠ .run := by decide +kernel

/-- An unbind deadline in RUN on a press that is not held: fit for the job, not fit for it, and not ONLINE. -/
theorem test_hyps_JobsReturnInRun :
    (emptied.mapPress 0 fun p => { p with unbindDeadline := some 5 }).presses[(0 : Fin 16)].unbindDeadline = some 5 ∧
      emptied.presses[(0 : Fin 16)].held = false ∧ emptied.mlc.mode = .run ∧
      emptied.presses[(0 : Fin 16)].link = .online ∧ emptied.presses[(0 : Fin 16)].profile.classes = [job.cls] ∧
      emptied.presses[(0 : Fin 16)].allows job = true ∧ emptied.presses[(0 : Fin 16)].path = [] ∧
      (emptied.mapPress 0 fun p => { p with effective := some ⟨false, true, 0xFF⟩ }).presses[(0 : Fin 16)].allows job = false ∧
      (emptied.mapPress 0 fun p => { p with link := .awaiting }).presses[(0 : Fin 16)].link ≠ .online := by
  decide +kernel

/-- `queued` with press 0 serving class 3, which is empty, before class 0. -/
def serving : State := queued.mapPress 0 fun p => { p with profile := { p.profile with classes := [3, 0] } }

/-- `queued` with press 1 READY and serving class 0 too. -/
def twoServers : State := queued.mapPress 1 fun _ => press

theorem test_hyps_JobsBindAmongSeveral :
    serving.servers 0 = [0] ∧ serving.presses[(0 : Fin 16)].profile.classes = [3] ++ 0 :: [] ∧
      serving.ru.queues[(3 : Fin 8)].entries = [] ∧ serving.presses[(0 : Fin 16)].allows (jobIn serving) = true ∧
      twoServers.servers 0 = [0, 1] ∧ (0 : Fin 8) ∈ twoServers.ru.reports ∧ twoServers.mlc.mode = .run ∧
      twoServers.ru.queues[(0 : Fin 8)].entries = [⟨handle, false⟩] ∧
      twoServers.jobOf handle = some (jobIn twoServers) ∧
      (∀ q ∈ twoServers.servers 0, twoServers.presses[q].held = false ∧
        twoServers.presses[q].profile.classes = [0] ∧ twoServers.presses[q].allows (jobIn twoServers) = true) := by
  decide +kernel

theorem test_hyps_SheetsDispatched :
    ({ press := 0, account := 0 } : Rise) ∈ (waiting 1000).mu.rises ∧
      (waiting 1000).presses[(0 : Fin 16)].link = .online ∧ (waiting 1000).presses[(0 : Fin 16)].bound = some handle ∧
      (waiting 1000).presses[(0 : Fin 16)].held = false ∧ (waiting 1000).mlc.mode = .run ∧
      (∀ e ∈ (waiting 1000).presses[(0 : Fin 16)].path, e.state ≠ .sending) ∧
      (waiting 1000).presses[(0 : Fin 16)].path.length < (waiting 1000).presses[(0 : Fin 16)].applied.getD 0 ∧
      (waiting 1000).jobOf handle = some job ∧ (waiting 1000).presses[(0 : Fin 16)].allows job = true ∧
      job.reprint = [] ∧ job.cursor = .next 1 3 ∧ 3 ≤ job.sheets ∧
      (waiting 1000).smm.sheet? handle.slot 3 = some sheet ∧
      (waiting 1000).mu.accounts[job.account].state = .opened ∧
      ((waiting 1000).sheetCharge job sheet : Int) ≤ (waiting 1000).mu.accounts[job.account].availability ∧
      (waiting 15).mu.accounts[job.account].availability < (waiting 15).sheetCharge job sheet ∧
      (waiting 15).presses[(0 : Fin 16)].cond ≠ some .fundsWait ∧
      lastSheet.presses[(0 : Fin 16)].tx = some ⟨7, 0, 3, 0⟩ ∧ feeding.presses[(0 : Fin 16)].tx = none ∧
      (waiting 1000).presses[(0 : Fin 16)].path.length ≤ 8 ∧ 1 ≤ 3 ∧
      ({ press := 1, account := 0 } : Rise) ∉ (waiting 1000).mu.rises := by decide +kernel

/-- `waiting` with a sheet to print again. -/
def reprinting : State := withJob { job with reprint := [⟨1, 1⟩, ⟨1, 2⟩] } (waiting 1000)

theorem test_hyps_SheetsDispatchedAgain :
    reprinting.jobOf handle = some (jobIn reprinting) ∧ (jobIn reprinting).reprint.head? = some ⟨1, 1⟩ ∧
      (jobIn reprinting).state = .active ∧ reprinting.presses[(0 : Fin 16)].allows (jobIn reprinting) = true ∧
      reprinting.smm.sheet? handle.slot 1 = some sheet := by decide +kernel

/-- Each choice that finds no sheet, with room in the path. -/
theorem test_hyps_SheetChoices :
    (waiting 1000).jobOf handle = some job ∧
      ((waiting 1000).mapPress 0 fun p => { p with effective := some ⟨false, true, 0xFF⟩ }).presses[(0 : Fin 16)].allows job =
        false ∧
      (∀ j ∈ [{ job with state := .ending }, { job with cursor := .allDispatched }, { job with cursor := .next 1 4 }],
        (withJob j (waiting 1000)).jobOf handle = some j ∧ j.reprint = [] ∧
        (withJob j (waiting 1000)).presses[(0 : Fin 16)].allows j = true) ∧ job.sheets < 4 ∧ job.state ≠ .ending ∧
      ((waiting 1000).mapPress 0 fun p => { p with path := [] }).presses[(0 : Fin 16)].path = [] := by decide +kernel

/-- R104: with an empty path STARVED starts the unbind timer at its full time of 120 s, and DRAINING does not. -/
theorem test_starved_timer :
    let s := (waiting 1000).mapPress 0 fun p => { p with path := [] }
    let timer : Job → Option Time := fun j =>
      (after (exec (.availabilityRiseReport 0 0) (withJob j s))).presses[(0 : Fin 16)].unbindDeadline
    timer { job with cursor := .next 1 4 } = some 1120000 ∧ timer { job with cursor := .allDispatched } = none := by
  decide +kernel

/-- R94, R95: the head of the reprint list goes before the cursor. -/
theorem test_reprint_first :
    let s := after (exec (.availabilityRiseReport 0 0) reprinting)
    (jobIn s).reprint = [⟨1, 2⟩] ∧ (jobIn s).cursor = job.cursor := by decide +kernel

theorem test_hyps_StoreWrites :
    ready.store.writeDue = false ∧ owing.store.writeDue = true ∧ owing.store.nextSeq ≤ 0xFFFFFFFE ∧
      owing.store.chosen = some 5 ∧ owing.store.place = some ([(0, 0)], 0, 1) ∧ owing.store.state = .idle ∧
      (owing.mapStore fun st => { st with nextSeq := 0xFFFFFFFF }).store.writeDue = true ∧
      (owing.mapStore fun st => { st with spare := none, writeSlot := 256 }).store.place = none ∧
      (owing.mapStore fun st => { st with spare := none, writeSlot := 256 }).store.writeDue = true ∧
      owing.store.writeSlot < 256 ∧ owing.store.freeAt owing.store.active 1 = true ∧
      owing.store.freeAt owing.store.active 0 = false := by decide +kernel

/-- The place in SPARE, behind the last slot of ACTIVE. -/
theorem test_hyps_StoreWritesToSpare :
    owingLast.store.writeDue = true ∧ owingLast.store.chosen = some 5 ∧ owingLast.store.spare = some 1 ∧
      owingLast.store.writeSlot = 255 ∧ owingLast.store.freeAt owingLast.store.active 255 = false ∧
      owingLast.store.freeAt 1 0 = true ∧ owingLast.store.place = some ([(0, 255)], 1, 0) ∧
      (1 : Fin 4) ≠ owingLast.store.active ∧
      moving.store.op = some (.write ⟨5, 17, ⟨1, 2, 3, 4⟩, [(0, 255)], 1, 0, true⟩) := by decide +kernel

/-- R153, R155: SPARE becomes ACTIVE as the last slot of ACTIVE is voided, and the sector behind it the victim. -/
theorem test_write_moves :
    (moving.store.passSlots 1 ⟨5, 17, ⟨1, 2, 3, 4⟩, [(0, 255)], 1, 0, true⟩).active = 1 ∧
      (let st := (after (exec .storeWriteComplete moving)).store
       st.active = 1 ∧ st.spare = none ∧ st.writeSlot = 1 ∧ st.victim = some 2) := by decide +kernel

theorem test_hyps_StoreWriteCompletes :
    (writing 1 false).store.op = some (.write ⟨5, 17, ⟨1, 2, 3, 4⟩, [(0, 0)], 0, 1, false⟩) ∧ (writing 1 false).memoriesSound ∧
      ((0, 1) : Fin 4 × Nat) ∉ [((0, 0) : Fin 4 × Nat)] ∧ (writing 1 false).store.saveOwed = true ∧
      (∀ p : Fin 16, (writing 1 false).store.marks[p].pending = false) ∧
      (writing 1 true).store.marks[(2 : Fin 16)].pending = true ∧
      (writing 255 true).store.op = some (.write ⟨5, 17, ⟨1, 2, 3, 4⟩, [(0, 254)], 0, 255, false⟩) ∧
      (writing 255 true).store.spare = some 1 ∧ (writing 255 true).store.active = 0 := by
  unfold State.memoriesSound; decide +kernel

/-- `writing` with nothing left to void: the record's program is in progress. -/
def recording : State :=
  (writing 1 false).mapStore fun st => { st with op := some (.write ⟨5, 17, ⟨1, 2, 3, 4⟩, [], 0, 1, false⟩) }

theorem test_hyps_HardwareResetLeaves :
    running.takes = true ∧ running.store.op = none ∧ recording.takes = true ∧ recording.memoriesSound ∧
      recording.store.op = some (.write ⟨5, 17, ⟨1, 2, 3, 4⟩, [], 0, 1, false⟩) ∧ recording.store.freeAt 0 1 = true ∧
      (writing 255 true).memoriesSound ∧
      (writing 255 true).store.op = some (.write ⟨5, 17, ⟨1, 2, 3, 4⟩, [(0, 254)], 0, 255, false⟩) ∧
      (writing 255 true).store.freeAt 0 255 = true ∧ ((0, 254) : Fin 4 × Nat) ≠ (0, 255) ∧
      (erasing 1).memoriesSound ∧ (erasing 1).store.op = some (.erase 2) := by
  unfold State.memoriesSound; decide +kernel

/-- R150, R162: the record that a power failure cuts off in its program is torn. -/
theorem test_record_cut_torn :
    slotKindOf (slotContent (after (exec (.powerOnReset Pins.idle) recording)).store.flash 0 1) = .torn :=
  (cutRecord_spec ⟨5, 17, ⟨1, 2, 3, 4⟩, [], 0, 1, false⟩ [] recording.choices (by decide +kernel)).2.2.2
    (by decide +kernel)

/-- The scan's end with a failure, a next sequence and a number of torn slots. -/
def scanned (f : Option FailReason) (n t : Nat) : State :=
  State.reset.mapStore fun st => { st with scan := some .ending, failed := f, nextSeq := n, torn := t }

/-- The scan reading a flash. -/
def scanning (m : Memory) : State := State.reset.mapStore fun st => { st with flash := m }

/-- It holds that flash. -/
theorem scanning_flash (m : Memory) : (scanning m).store.flash = m := rfl

/-- A flash with one more record, in a slot of a sector. -/
def recorded (k : Fin 4) (i : Nat) (p : Fin 16) (n : Nat) (m : Memory) : Memory :=
  flashProgramAll m (slotAddress k i) (recordBytes p n ⟨5, 6, 7, 8⟩)

/-- A slot holds what it held when another one is programmed. -/
theorem programmed_other (k k' : Fin 4) (i i' : Nat) (l : List Byte) (m : Memory) (hl : l.length ≤ 32) (hi : i < 256)
    (hi' : i' < 256) (h : (k', i') ≠ (k, i)) :
    slotContent (flashProgramAll m (slotAddress k i) l) k' i' = slotContent m k' i' := by
  unfold slotContent Memory.readAll
  refine List.map_congr_left fun j hj => ?_
  rw [List.mem_range] at hj
  refine flashProgramAll_other _ _ _ _ ?_
  simp only [slotAddress, Config.sectorBytes, Config.slotBytes] at hj ⊢
  have : k'.val ≠ k.val ∨ i' ≠ i := by
    by_contra hc
    have h1 : k'.val = k.val ∧ i' = i := by omega
    exact h (Prod.ext (Fin.ext h1.1) h1.2)
  omega

/-- So does any other slot than that of a record. -/
theorem recorded_other (k k' : Fin 4) (i i' : Nat) (p : Fin 16) (n : Nat) (m : Memory) (hi : i < 256) (hi' : i' < 256)
    (h : (k', i') ≠ (k, i)) : slotContent (recorded k i p n m) k' i' = slotContent m k' i' :=
  programmed_other _ _ _ _ _ _ (Nat.le_of_eq rfl) hi hi' h

/-- Every slot of an erased flash is free. -/
theorem erased_free (k : Fin 4) (i : Nat) : slotKindOf (slotContent [] k i) = .free := by
  rfl

/-- The scan reading a flash with one record, of press 5 in slot 2 of sector 0. -/
def scanFlash : State := scanning (flashProgramAll [] 64 (recordBytes 5 9 ⟨5, 6, 7, 8⟩))

/-- Every slot of that flash but the one is free. -/
theorem scanFlash_free (k : Fin 4) (i : Nat) (hi : i < 256) (h : (k, i) ≠ (0, 2)) :
    slotKindOf (slotContent (flashProgramAll [] 64 (recordBytes 5 9 ⟨5, 6, 7, 8⟩)) k i) = .free :=
  (congrArg slotKindOf (recorded_other 0 k 2 i 5 9 [] (by decide) hi h)).trans (erased_free k i)

theorem test_hyps_StoreErases :
    ready.store.eraseDue = false ∧ (ready.mapStore fun st => { st with victim := some 2 }).store.eraseDue = true ∧
      (erasing 1).store.op = some (.erase 2) ∧ (erasing 1).store.scan = none ∧ (erasing 1).store.attempts < 2 ∧
      2 ≤ (erasing 2).store.attempts ∧ ready.store.op = none ∧
      (∀ c ∈ ([(0, 0), (8191, 0xFE)] : List (Nat × Byte)), c.1 < 8192 ∧ c.2 ≠ 0xFF) ∧
      ([0, 8191] : List Nat).Nodup := by decide +kernel

/-- An erase that ends in each phase of the scan. -/
theorem test_hyps_StoreErasesInScan :
    ∀ ph ∈ [ScanPhase.clearing [3], .clearing [], .compacting],
      (scanErasing 2 ph).store.op = some (.erase 2) ∧ (scanErasing 2 ph).store.state = .scanning ∧
        (scanErasing 2 ph).store.scan = some ph ∧ 2 ≤ (scanErasing 2 ph).store.attempts := by decide +kernel

/-- R163, R151: a second failure in the scan leads to its end in FAILED, with no erase attempts. -/
theorem test_scan_fails :
    let s := after (exec (.storeEraseEnd [(8191, 0)]) (scanErasing 2 .compacting))
    s.store.scan = some .ending ∧ (after (exec .scanEnd s)).store.attempts = 0 ∧
      (after (exec .scanEnd s)).store.failed = some (.erase 2) := by decide +kernel

theorem test_hyps_Scan :
    scanFlash.store.scan = some .reading ∧ scanFlash.store.state = .scanning ∧
      slotKindOf (slotContent scanFlash.store.flash 0 2) = .record ⟨5, 9, ⟨5, 6, 7, 8⟩⟩ ∧
      (∀ (y : Fin 4 × Nat) (r : MeterRecord), y.2 < 256 → y ≠ (0, 2) →
        slotKindOf (slotContent scanFlash.store.flash y.1 y.2) ≠ .record r) ∧
      ready.store.scan ≠ some .ending ∧ (scanned none 5 0).store.scan = some .ending ∧
      (scanned none 5 0).store.failed = none ∧ (scanned none 5 0).store.nextSeq ≤ 0xFFFFFFFE ∧
      0xFFFFFFFE < (scanned none 0xFFFFFFFF 1).store.nextSeq ∧
      (scanned (some .worn) 1 1).store.failed = some .worn ∧
      (scanned (some (.erase 2)) 1 1).store.failed = some (.erase 2) := by
  refine ⟨by decide +kernel, by decide +kernel, by decide +kernel, ?_, by decide +kernel, by decide +kernel,
    by decide +kernel, by decide +kernel, by decide +kernel, by decide +kernel, by decide +kernel⟩
  intro y r h1 h2
  have h := scanFlash_free y.1 y.2 h1 h2
  rw [scanFlash, scanning_flash, h]
  exact SlotKind.noConfusion

/-- The scan reading a flash whose highest record, of sequence 9, is in a slot of sector 0. -/
def topAt (i : Nat) (m : Memory) : State := scanning (recorded 0 i 5 9 m)

/-- It holds that flash. -/
theorem topAt_flash (i : Nat) (m : Memory) : (topAt i m).store.flash = recorded 0 i 5 9 m := scanning_flash _

/-- The scan's reading answers next. -/
theorem scanRead_next (s : State) (h : s.store.scan = some .reading) : exec .scanReadDone s = .next s.readDone :=
  congrArg Host.Outcome.next (if_pos h)

/-- A slot of an erased flash is free for the store that reads it. -/
theorem free_of (u : State) (k : Fin 4) (i : Nat) (h : slotContent u.store.flash k i = slotContent [] k i) :
    u.store.freeAt k i = true := by
  rw [Store.freeAt, Store.kindAt, h, erased_free]; rfl

/-- The one record of the flash in the middle of ACTIVE, and in its last slot; the sectors behind are erased. -/
theorem test_hyps_Ring : ∀ i, i = 2 ∨ i = 255 →
    exec .scanReadDone (topAt i []) = .next (topAt i []).readDone ∧ (topAt i []).store.scan = some .reading ∧
      (topAt i []).store.victim = none ∧
      slotKindOf (slotContent (topAt i []).readDone.store.flash 0 i) = .record ⟨5, 9, ⟨5, 6, 7, 8⟩⟩ ∧
      (∀ (y : Fin 4 × Nat) (r : MeterRecord), y.2 < 256 → y ≠ (0, i) →
        slotKindOf (slotContent (topAt i []).readDone.store.flash y.1 y.2) ≠ .record r) ∧
      (∀ n, i + 1 ≤ n → n < 256 → (topAt i []).readDone.store.freeAt 0 n = true) ∧
      (topAt i []).readDone.store.freeAt 0 i = false ∧
      ∀ k : Fin 4, k ≠ 0 → (topAt i []).readDone.store.counts[k].free = 256 := by
  intro i hi
  have h256 : i < 256 := by omega
  have hf : (topAt i []).readDone.store.flash = recorded 0 i 5 9 [] :=
    (State.readDone_index _).1.trans (topAt_flash i [])
  have hk : slotKindOf (slotContent (recorded 0 i 5 9 []) 0 i) = .record ⟨5, 9, ⟨5, 6, 7, 8⟩⟩ := by
    obtain h | h := hi <;> rw [h] <;> decide +kernel
  refine ⟨scanRead_next _ rfl, rfl, rfl, ?_, ?_, ?_, ?_, ?_⟩
  · rw [hf, hk]
  · intro y r h1 h2
    rw [hf, recorded_other 0 y.1 i y.2 5 9 [] h256 h1 h2, erased_free]
    exact SlotKind.noConfusion
  · intro n h1 h2
    refine free_of _ _ _ ?_
    rw [hf]
    exact recorded_other 0 0 i n 5 9 [] h256 h2 fun e => absurd (Prod.ext_iff.1 e).2 (by omega)
  · rw [Store.freeAt, Store.kindAt, hf, hk]; rfl
  · intro k hne
    rw [State.readDone_erased]
    intro n h
    refine free_of _ _ _ ?_
    rw [topAt_flash]
    exact recorded_other 0 k i n 5 9 [] h256 h fun e => hne (Prod.ext_iff.1 e).1

/-- An older record, of press 6, in the sector behind ACTIVE, which is then no SPARE. -/
def victimAhead : State := topAt 7 (recorded 1 3 6 4 [])

/-- The scan finds it there. -/
theorem test_hyps_RingVictim :
    exec .scanReadDone victimAhead = .next victimAhead.readDone ∧ victimAhead.store.scan = some .reading ∧
      victimAhead.store.victim = none ∧
      slotKindOf (slotContent victimAhead.readDone.store.flash 0 7) = .record ⟨5, 9, ⟨5, 6, 7, 8⟩⟩ ∧
      slotKindOf (slotContent victimAhead.readDone.store.flash 1 3) = .record ⟨6, 4, ⟨5, 6, 7, 8⟩⟩ ∧
      victimAhead.readDone.store.freeAt 0 7 = false ∧
      victimAhead.readDone.store.counts[(1 : Fin 4)].free ≠ 256 := by
  have hf : victimAhead.readDone.store.flash = recorded 0 7 5 9 (recorded 1 3 6 4 []) :=
    (State.readDone_index _).1.trans (topAt_flash 7 _)
  refine ⟨scanRead_next _ rfl, rfl, rfl, ?_, ?_, ?_, ?_⟩
  · rw [hf]; decide +kernel
  · rw [hf]; decide +kernel
  · rw [Store.freeAt, Store.kindAt, hf]; decide +kernel
  · have h3 : victimAhead.store.freeAt 1 3 = false := by decide +kernel
    rw [Ne, State.readDone_erased]
    exact fun h => Bool.false_ne_true (h3.symm.trans (h 3 (by decide)))

/-- A flash with no record and a stray byte in sector 1, which the scan has to clear. -/
theorem test_hyps_ScanClears :
    let s := scanning (flashProgramAll [] (slotAddress 1 0) [0])
    let u := s.readDone
    exec .scanReadDone s = .next u ∧ u.store.counts[(1 : Fin 4)].free ≠ 256 ∧ u.store.counts[(0 : Fin 4)].free = 256 ∧
      ∀ (i : Nat) (r : MeterRecord), i < 256 → slotKindOf (slotContent s.store.flash 1 i) ≠ .record r := by
  refine ⟨scanRead_next _ rfl, ?_, ?_, ?_⟩
  · have h0 : (scanning (flashProgramAll [] (slotAddress 1 0) [0])).store.freeAt 1 0 = false := by decide +kernel
    rw [Ne, State.readDone_erased]
    exact fun h => Bool.false_ne_true (h0.symm.trans (h 0 (by decide)))
  · rw [State.readDone_erased]
    exact fun n h => free_of _ _ _ (programmed_other 1 0 0 n [0] [] (by decide) (by decide) h (by simp))
  · intro i r hi
    rw [scanning_flash]
    by_cases h0 : i = 0
    · subst h0
      have h : slotKindOf (slotContent (flashProgramAll [] (slotAddress 1 0) [0]) 1 0) = .torn := by decide +kernel
      rw [h]
      exact SlotKind.noConfusion
    · rw [programmed_other 1 1 0 i [0] [] (by decide) (by decide) hi (by simp [h0]), erased_free]
      exact SlotKind.noConfusion

/-- The last sector to clear has been erased: the flash holds nothing, and no victim is set. -/
theorem test_hyps_RingAfterErase :
    let s := (scanErasing 1 (.clearing [])).mapStore fun st => { st with victim := none }
    s.store.op = some (.erase 2) ∧ s.store.scan = some (.clearing []) ∧ s.store.state = .scanning ∧
      s.store.victim = none ∧ flashErase s.store.flash 2 [] = [] ∧ s.store.counts[(1 : Fin 4)].free = 256 ∧
      ∀ k i, slotKindOf (slotContent [] k i) = .free := by
  exact ⟨rfl, rfl, rfl, rfl, by decide +kernel, by decide +kernel, erased_free⟩

/-- R163 steps 2 and 3: an erased flash gives sector 0 as ACTIVE, sector 1 as SPARE and sequence 1. -/
theorem test_ring_empty :
    let st := (ready.store.ring).scanFill.victimStep
    st.active = 0 ∧ st.spare = some 1 ∧ st.writeSlot = 0 ∧ st.nextSeq = 1 ∧ st.victim = none := by decide +kernel

end Sys2Proof.Tests
end

section
/-! The spool memory manager's allocation (R25 to R27, R40): free list and chains stay a partition of the extents under
every operation of the spool. -/

namespace Sys2Proof.Machine

/-- Setting one element trades that element's part of a `flatMap` for the new one's. -/
theorem flatMap_set_exchange {α β : Type} (f : α → List β) (l : List α) (i : Nat) (x : α) (h : i < l.length) :
    ((l.set i x).flatMap f ++ f l[i]).Perm (l.flatMap f ++ f x) := by
  induction l generalizing i with
  | nil => simp at h
  | cons y l ih =>
    cases i with
    | zero =>
      simp only [List.set_cons_zero, List.flatMap_cons, List.getElem_cons_zero]
      calc (f x ++ l.flatMap f ++ f y).Perm (f y ++ (f x ++ l.flatMap f)) := List.perm_append_comm
        List.Perm _ (f y ++ (l.flatMap f ++ f x)) := List.perm_append_comm.append_left _
        _ = f y ++ l.flatMap f ++ f x := (List.append_assoc ..).symm
    | succ i =>
      simp only [List.set_cons_succ, List.flatMap_cons, List.getElem_cons_succ, List.append_assoc]
      exact (ih i (by simpa using h)).append_left _

/-- Giving one slot another chain trades its old chain for the new one among all chains. -/
theorem Smm.chained_set (m : Smm) (i : Fin 64) (sp : SlotSpool) :
    (Smm.chained { m with slots := m.slots.set i sp } ++ m.slots[i].chain).Perm (m.chained ++ sp.chain) := by
  have h := flatMap_set_exchange SlotSpool.chain m.slots.toList i sp (by simp)
  simpa [Smm.chained, Vector.toList_set] using h

/-- Free list and chains together are the extents of the spool size, each once (R25). -/
def Smm.partitioned (m : Smm) : Prop := (m.free ++ m.chained).Perm (List.range m.size.extents)

/-- No extent stands twice in a chain. -/
theorem Smm.partitioned.chain_nodup {m : Smm} (hp : m.partitioned) (i : Fin 64) : m.slots[i].chain.Nodup := by
  have hall : m.chained.Nodup := (List.nodup_append.1 (hp.nodup_iff.2 List.nodup_range)).2.1
  exact (List.nodup_flatMap.1 hall).1 _ (by simp)

/-- What an operation of the spool keeps: the canonical form of the memory (log entry 27) and the partition of the extents
(R25). -/
structure Smm.Keeps (m n : Smm) : Prop where
  mem : Memory.wf Config.unwrittenByte m.mem = true → Memory.wf Config.unwrittenByte n.mem = true
  extents : m.partitioned → n.partitioned

theorem Smm.Keeps.refl (m : Smm) : m.Keeps m := ⟨id, id⟩

theorem Smm.Keeps.trans {a b c : Smm} (x : a.Keeps b) (y : b.Keeps c) : a.Keeps c :=
  ⟨y.mem ∘ x.mem, y.extents ∘ x.extents⟩

/-- A slot changed with its chain as it was, and the memory with its form, keep the spool's laws. -/
theorem Smm.Keeps.of_chain {m n : Smm} (i : Fin 64) (sp : SlotSpool) (hc : sp.chain = m.slots[i].chain)
    (hm : Memory.wf Config.unwrittenByte m.mem = true → Memory.wf Config.unwrittenByte n.mem = true)
    (hf : n.free = m.free) (hz : n.size = m.size) (hs : n.slots = m.slots.set i sp) : m.Keeps n := by
  refine ⟨hm, fun hp => ?_⟩
  have hx := m.chained_set i sp
  rw [hc, List.perm_append_right_iff] at hx
  have hn : n.chained = Smm.chained { m with slots := m.slots.set i sp } := by rw [Smm.chained, hs]; rfl
  unfold Smm.partitioned at hp ⊢
  rw [hf, hz, hn]
  exact (hx.append_left _).trans hp

/-- A change of a slot's write position or records alone. -/
theorem Smm.mapSlot_keeps (i : Fin 64) (f : SlotSpool → SlotSpool) (m : Smm)
    (h : (f m.slots[i]).chain = m.slots[i].chain) : m.Keeps (m.mapSlot i f) :=
  .of_chain i (f m.slots[i]) h id rfl rfl rfl

/-- An allocation moves the head of the free list to the end of a chain (R27). -/
theorem Smm.allocate_keeps (h : Handle) (m : Smm) : m.Keeps (m.allocate h) := by
  obtain ⟨-, e⟩ | ⟨x, rest, hf, hf', hz, hm, hs⟩ := Smm.allocate_spec h m
  · rw [e]; exact .refl m
  refine ⟨by rw [hm]; exact id, fun hp => ?_⟩
  have hx : (Smm.chained (m.allocate h)).Perm (x :: m.chained) := by
    rw [← List.perm_append_right_iff m.slots[h.slot].chain, Smm.chained, hs]
    calc List.Perm _ (m.chained ++ (m.slots[h.slot].chain ++ [x])) := m.chained_set h.slot _
      _ = (m.chained ++ m.slots[h.slot].chain) ++ [x] := (List.append_assoc ..).symm
      List.Perm _ (x :: (m.chained ++ m.slots[h.slot].chain)) := List.perm_append_singleton ..
  unfold Smm.partitioned at hp ⊢
  rw [hf', hz]
  rw [hf] at hp
  exact (hx.append_left rest).trans (List.perm_middle.trans hp)

/-- Allocating only where the chain does not reach the write position. -/
theorem Smm.ensure_keeps (h : Handle) (m : Smm) : m.Keeps (m.ensure h) := by
  unfold Smm.ensure
  split
  · exact .refl m
  · exact m.allocate_keeps h

/-- A byte stored at the write position. -/
theorem Smm.storeByte_keeps (h : Handle) (m : Smm) (b : Byte) : m.Keeps (m.storeByte h b) :=
  (m.ensure_keeps h).trans 
    (.of_chain h.slot { (m.ensure h).slots[h.slot] with wpos := (m.ensure h).slots[h.slot].wpos.advance } rfl
      (Memory.write_wf _ _ _ _) rfl rfl rfl)

theorem Smm.storeBytes_keeps (h : Handle) (l : List Byte) (m : Smm) : m.Keeps (l.foldl (Smm.storeByte h) m) := by
  induction l generalizing m with
  | nil => exact .refl m
  | cons b l ih => exact (m.storeByte_keeps h b).trans (ih _)

theorem Smm.mapSheet_keeps (i : Fin 64) (n : Nat) (f : SheetRecord → SheetRecord) (m : Smm) :
    m.Keeps (m.mapSheet i n f) := m.mapSlot_keeps i _ rfl

/-- A chunk stored for an open sheet (R35). -/
theorem Smm.storeChunk_keeps (h : Handle) (n : Nat) (chunk : List Byte) (m : Smm) :
    m.Keeps (m.storeChunk h n chunk) :=
  ((m.ensure_keeps h).trans (Smm.storeBytes_keeps h chunk _)).trans (Smm.mapSheet_keeps h.slot n _ _)

/-- An open sheet abandoned (R33): the write position returns and no extent is given back. -/
theorem Smm.abandon_keeps (i : Fin 64) (n : Nat) (m : Smm) : m.Keeps (m.abandon i n) := by
  unfold Smm.abandon
  split
  · exact m.mapSlot_keeps i _ rfl
  · exact .refl m

/-- A chain freed goes to the tail of the free list (R40). -/
theorem Smm.freeChain_keeps (i : Fin 64) (m : Smm) : m.Keeps (m.freeChain i) := by
  refine ⟨id, fun hp => ?_⟩
  have hx : ((m.freeChain i).chained ++ m.slots[i].chain).Perm m.chained := by
    have hx := m.chained_set i SlotSpool.empty
    rwa [show SlotSpool.empty.chain = [] from rfl, List.append_nil] at hx
  unfold Smm.partitioned at hp ⊢
  calc (m.free ++ m.slots[i].chain) ++ (m.freeChain i).chained
    _ = m.free ++ (m.slots[i].chain ++ (m.freeChain i).chained) := List.append_assoc ..
    List.Perm _ (m.free ++ ((m.freeChain i).chained ++ m.slots[i].chain)) := List.perm_append_comm.append_left _
    List.Perm _ (m.free ++ m.chained) := hx.append_left _
    List.Perm _ (List.range m.size.extents) := hp

/-- A spool as a reset leaves it has every extent in its free list (R42). -/
theorem Smm.fresh_partitioned (size : SpoolSize) (mem : Memory) : (Smm.fresh size mem).partitioned := by
  have h : (Smm.fresh size mem).chained = [] := by
    simp [Smm.chained, Smm.fresh, SlotSpool.empty, Vector.toList_replicate]
  rw [Smm.partitioned, h, List.append_nil]
  exact .refl _

theorem Smm.fresh_keeps (size : SpoolSize) (m : Smm) : m.Keeps (Smm.fresh size m.mem) :=
  ⟨id, fun _ => Smm.fresh_partitioned size m.mem⟩

end Sys2Proof.Machine
end

section
/-! What the operations of the part do to its two memories and to the spool: nearly every one leaves both as they are, said
once for each operation as an equation on `State.stored`. -/

namespace Sys2Proof.Machine

/-- The spool memory manager and the flash: all that the laws of chapters 2 and 8 about memory speak of. -/
structure Stored where
  smm : Smm
  flash : Memory

/-- The memories of a state. -/
def State.stored (s : State) : Stored := ⟨s.smm, s.store.flash⟩

section
variable (s : State)

/-! ### Updates of one block, free choices, link and marks -/

@[simp] theorem State.mapMlc_stored (f : Mlc → Mlc) : (s.mapMlc f).stored = s.stored := rfl
@[simp] theorem State.mapSlot_stored (i : Fin 64) (f : Slot → Slot) : (s.mapSlot i f).stored = s.stored := rfl
@[simp] theorem State.mapRu_stored (f : Ru → Ru) : (s.mapRu f).stored = s.stored := rfl
@[simp] theorem State.mapPress_stored (p : Fin 16) (f : Press → Press) : (s.mapPress p f).stored = s.stored := rfl
@[simp] theorem State.mapMu_stored (f : Mu → Mu) : (s.mapMu f).stored = s.stored := rfl
@[simp] theorem State.mapAu_stored (f : Au → Au) : (s.mapAu f).stored = s.stored := rfl
@[simp] theorem State.mapZone_stored (z : Fin 4) (f : Zone → Zone) : (s.mapZone z f).stored = s.stored := rfl

/-- A change of the store that leaves its flash. -/
theorem State.mapStore_stored (f : Store → Store) (h : (f s.store).flash = s.store.flash) :
    (s.mapStore f).stored = s.stored := by
  rw [State.stored, State.mapStore_store, h]; rfl

@[simp] theorem State.choose_stored (c : Nat) : ({ s with choices := c } : State).stored = s.stored := rfl

@[simp] theorem State.anyUpTo_stored (n : Nat) : (s.anyUpTo n).2.stored = s.stored := by
  obtain ⟨c, hc⟩ := (s.anyUpTo_spec n).2
  rw [hc, State.choose_stored]

@[simp] theorem State.notice_stored (k : NoticeKind) (a b : Nat) (d : List Byte) :
    (s.notice k a b d).stored = s.stored := rfl
@[simp] theorem State.reply_stored (typ tag : Byte) (st : Status) (body : List Byte) :
    (s.reply typ tag st body).stored = s.stored := rfl
@[simp] theorem State.dropRequest_stored : s.dropRequest.stored = s.stored := rfl
@[simp] theorem State.markPending_stored (p : Fin 16) : (s.markPending p).stored = s.stored := rfl
@[simp] theorem State.send_stored (p : Fin 16) (f : FeedFrame) : (s.send p f).stored = s.stored := rfl

/-- An operation that leaves the memories does so any number of times. -/
theorem foldl_stored {α : Type} (f : State → α → State) (h : ∀ s x, (f s x).stored = s.stored) (l : List α)
    (s : State) : (l.foldl f s).stored = s.stored := by
  induction l generalizing s with
  | nil => rfl
  | cons x l ih => exact (ih _).trans (h s x)

@[simp] theorem State.markAll_stored (l : List (Fin 16)) : (s.markAll l).stored = s.stored :=
  foldl_stored (fun s p => s.markPending p) (fun _ _ => rfl) l s

/-! ### Frames of a transmission (R80, R81) -/

@[simp] theorem State.mapJob_stored (i : Fin 64) (f : Job → Job) : (s.mapJob i f).stored = s.stored := rfl
@[simp] theorem State.sendData_stored (p : Fin 16) (t : Transmission) (n : Nat) :
    (s.sendData p t n).stored = s.stored := rfl

@[simp] theorem State.advanceTx_stored (p : Fin 16) : (s.advanceTx p).stored = s.stored := by
  unfold State.advanceTx
  split <;> simp

@[simp] theorem State.sendBetween_stored (p : Fin 16) (f : FeedFrame) : (s.sendBetween p f).stored = s.stored := by
  simp [State.sendBetween]

@[simp] theorem State.stopTx_stored (p : Fin 16) : (s.stopTx p).stored = s.stored := by simp [State.stopTx]

/-! ### The alert unit and the stall watch (chapter 9, R102, R103) -/

@[simp] theorem State.refresh_stored (p : Fin 16) : (s.refresh p).stored = s.stored := rfl
@[simp] theorem State.derivePattern_stored (z : Fin 4) : (s.derivePattern z).stored = s.stored := rfl
@[simp] theorem State.handToZone_stored (p : Fin 16) : (s.handToZone p).stored = s.stored := rfl
@[simp] theorem State.setEntry_stored (p : Fin 16) (k : AlertKind) (e : Option AlertEntry) :
    (s.setEntry p k e).stored = s.stored := rfl

@[simp] theorem State.holdBegun_stored (p : Fin 16) : (s.holdBegun p).stored = s.stored := by simp [State.holdBegun]

@[simp] theorem State.raise_stored (p : Fin 16) (k : AlertKind) (d : Byte) : (s.raise p k d).1.stored = s.stored := by
  unfold State.raise
  split
  · rfl
  · split
    · simp only [State.raiseNew]
      split <;> simp
    · simp [State.raiseAgain]

@[simp] theorem State.alert_stored (p : Fin 16) (k : AlertKind) (d : Byte) : (s.alert p k d).stored = s.stored :=
  s.raise_stored p k d

@[simp] theorem State.protocol_stored (p : Fin 16) (e : ProtocolError) : (s.protocol p e).stored = s.stored :=
  s.raise_stored p _ _

@[simp] theorem State.conditionEnd_stored (p : Fin 16) (k : AlertKind) (d : Option Byte) :
    (s.conditionEnd p k d).stored = s.stored := by
  unfold State.conditionEnd
  split
  · rfl
  · dsimp only
    split
    · simp
    · split <;> simp

@[simp] theorem State.raiseStall_stored (p : Fin 16) (tag : Half) : (s.raiseStall p tag).stored = s.stored := by
  unfold State.raiseStall
  dsimp only
  split <;> simp

@[simp] theorem State.stallAfterLeave_stored (p : Fin 16) (w : Bool) : (s.stallAfterLeave p w).stored = s.stored := by
  unfold State.stallAfterLeave
  dsimp only
  split <;> cases w <;> simp

/-! ### Accounts and meters (chapters 7 and 8) -/

@[simp] theorem State.mapAccount_stored (a : Fin 256) (f : Account → Account) :
    (s.mapAccount a f).stored = s.stored := rfl
@[simp] theorem State.mapMeter_stored (p : Fin 16) (f : Meter → Meter) : (s.mapMeter p f).stored = s.stored := rfl
@[simp] theorem State.reserve_stored (a : Fin 256) (c : Nat) : (s.reserve a c).stored = s.stored := rfl
@[simp] theorem State.availabilityEvent_stored (a : Fin 256) : (s.availabilityEvent a).stored = s.stored := rfl
@[simp] theorem State.settle_stored (a : Fin 256) (c n : Nat) : (s.settle a c n).stored = s.stored := rfl

@[simp] theorem State.release_stored (a : Fin 256) (c : Nat) : (s.release a c).stored = s.stored := by
  unfold State.release
  dsimp only
  split <;> simp

@[simp] theorem State.applyMinimum_stored (a : Fin 256) (c : Nat) : (s.applyMinimum a c).2.stored = s.stored := rfl

@[simp] theorem State.countDelivery_stored (p : Fin 16) (e : PathEntry) : (s.countDelivery p e).stored = s.stored := by
  unfold State.countDelivery State.checkpoint
  dsimp only
  split <;> simp

@[simp] theorem State.countSpoiled_stored (p : Fin 16) : (s.countSpoiled p).stored = s.stored := rfl

@[simp] theorem State.riseIf_stored (due : Bool) (n : Fin 256) : (s.riseIf due n).stored = s.stored := by
  unfold State.riseIf
  split <;> simp

/-! ### Dispatch and binding (R88 to R96) -/

@[simp] theorem State.dispatch_stored (p : Fin 16) (h : Handle) (j : Job) (l : Bool) (x : CopySheet) (r : SheetRecord)
    (c : Nat) : (s.dispatch p h j l x r c).stored = s.stored := rfl
@[simp] theorem State.noSheet_stored (p : Fin 16) (c : Choice) : (s.noSheet p c).stored = s.stored := rfl

@[simp] theorem State.fundsRefused_stored (p : Fin 16) (h : Handle) (a : Fin 256) (c : Nat) :
    (s.fundsRefused p h a c).stored = s.stored := by
  unfold State.fundsRefused
  dsimp only
  split <;> simp

@[simp] theorem State.trySheet_stored (p : Fin 16) (h : Handle) (j : Job) (l : Bool) (x : CopySheet) :
    (s.trySheet p h j l x).stored = s.stored := by
  unfold State.trySheet
  split
  · simp
  · dsimp only
    split <;> simp

/-- A dispatch opportunity reads the spool and changes nothing of it. -/
@[simp] theorem State.opportunity_stored (p : Fin 16) : (s.opportunity p).stored = s.stored := by
  unfold State.opportunity
  split
  · rfl
  · split
    · simp
    · split
      · split <;> simp
      · simp

@[simp] theorem State.bind_stored (p : Fin 16) (c : Fin 8) (h : Handle) (j : Job) :
    (s.bind p c h j).stored = s.stored := by simp [State.bind]

@[simp] theorem State.bindEvent_stored (p : Fin 16) : (s.bindEvent p).stored = s.stored := by
  unfold State.bindEvent
  split
  · split <;> simp
  · rfl

@[simp] theorem State.unbind_stored (p : Fin 16) : (s.unbind p).stored = s.stored := by simp [State.unbind]

@[simp] theorem State.opportunityIfStill_stored (p : Fin 16) (h : Option Handle) :
    (s.opportunityIfStill p h).stored = s.stored := by
  unfold State.opportunityIfStill
  split <;> simp

@[simp] theorem State.opportunityOf_stored (j : Job) : (s.opportunityOf j).stored = s.stored := by
  unfold State.opportunityOf
  split <;> simp

@[simp] theorem State.returnJob_stored (h : Handle) (j : Job) : (s.returnJob h j).stored = s.stored := rfl

/-! ### The steps of R16 beside the spool's own -/

@[simp] theorem State.minimumStep_stored (i : Fin 64) (r : EndReason) (j : Job) :
    (s.minimumStep i r j).stored = s.stored := by
  unfold State.minimumStep
  split <;> simp

@[simp] theorem State.unbindStep_stored (i : Fin 64) (j : Job) : (s.unbindStep i j).stored = s.stored := by
  unfold State.unbindStep
  split <;> simp

@[simp] theorem State.jobNotice_stored (i : Fin 64) (r : EndReason) : (s.jobNotice i r).stored = s.stored := by
  unfold State.jobNotice
  split <;> simp

/-! ### Modes, holds and links -/

@[simp] theorem State.refreshAll_stored : s.refreshAll.stored = s.stored :=
  foldl_stored (fun s p => s.refresh p) (fun _ _ => rfl) _ s

@[simp] theorem State.quiesceTest_stored : s.quiesceTest.stored = s.stored := by
  unfold State.quiesceTest
  split <;> simp

@[simp] theorem State.holdEnded_stored (p : Fin 16) : (s.holdEnded p).stored = s.stored := by
  unfold State.holdEnded
  dsimp only
  split <;> simp

@[simp] theorem State.removeEntry_stored (p : Fin 16) (r : RemovalReason) (held : Bool) (k : AlertKind) :
    (s.removeEntry p r held k).stored = s.stored := by
  unfold State.removeEntry
  split <;> simp

@[simp] theorem State.removeEntries_stored (p : Fin 16) (r : RemovalReason) (l : List AlertKind) :
    (s.removeEntries p r l).stored = s.stored := by
  have h := fun b => foldl_stored (State.removeEntry p r b) (fun s k => s.removeEntry_stored p r b k) l s
  unfold State.removeEntries
  dsimp only
  split <;> simp [h]

@[simp] theorem State.heard_stored (p : Fin 16) : (s.heard p).stored = s.stored := by
  unfold State.heard
  dsimp only
  split <;> simp

@[simp] theorem State.probe_stored (p : Fin 16) : (s.probe p).stored = s.stored := rfl

end

end Sys2Proof.Machine
end

section
/-! The events that change the memories: entry to a final state and abandoned sheets free or shorten a job's spool, the
store programs and erases its flash, a reset begins both anew. Each keeps the canonical forms and the partition of the
extents. -/

namespace Sys2Proof.Machine

/-- What every step keeps of the two memories: the spool's laws and the canonical form of the flash. -/
structure Stored.Keeps (a b : Stored) : Prop where
  smm : a.smm.Keeps b.smm
  flash : Memory.wf Config.erasedByte a.flash = true → Memory.wf Config.erasedByte b.flash = true

theorem Stored.Keeps.refl (a : Stored) : a.Keeps a := ⟨.refl _, id⟩

theorem Stored.Keeps.trans {a b c : Stored} (x : a.Keeps b) (y : b.Keeps c) : a.Keeps c :=
  ⟨x.smm.trans y.smm, y.flash ∘ x.flash⟩

theorem Stored.Keeps.of_eq {a b : Stored} (h : b = a) : a.Keeps b := h ▸ .refl a

/-- An operation that keeps the laws does so any number of times. -/
theorem foldl_keeps {α : Type} (f : State → α → State) (h : ∀ (s : State) (x : α), s.stored.Keeps (f s x).stored)
    (l : List α) (s : State) : s.stored.Keeps (l.foldl f s).stored := by
  induction l generalizing s with
  | nil => exact .refl _
  | cons x l ih => exact (h s x).trans (ih _)

section
variable (s : State)

theorem State.mapSmm_keeps (f : Smm → Smm) (h : s.smm.Keeps (f s.smm)) : s.stored.Keeps (s.mapSmm f).stored := ⟨h, id⟩

theorem State.mapStore_keeps (f : Store → Store)
    (h : Memory.wf Config.erasedByte s.store.flash = true → Memory.wf Config.erasedByte (f s.store).flash = true) :
    s.stored.Keeps (s.mapStore f).stored := ⟨.refl _, h⟩

/-! ### Jobs: abandoned sheets and final states (R16, R33, R40) -/

theorem State.abandonOpen_keeps (i : Fin 64) : s.stored.Keeps (s.abandonOpen i).stored := by
  unfold State.abandonOpen
  split
  · simpa using s.mapSmm_keeps _ (s.smm.abandon_keeps i _)
  · exact .refl _

theorem State.enterFinal_keeps (i : Fin 64) (r : EndReason) (x : Option CopySheet) :
    s.stored.Keeps (s.enterFinal i r x).stored := by
  unfold State.enterFinal
  split
  · exact .refl _
  · simpa using (s.mapJob i _).mapSmm_keeps _ (Smm.freeChain_keeps i _)

theorem State.endingTest_keeps (i : Fin 64) : s.stored.Keeps (s.endingTest i).stored := by
  unfold State.endingTest
  split
  · split
    · split <;> exact s.enterFinal_keeps i _ _
    · exact .refl _
  · exact .refl _

theorem State.doneTest_keeps (i : Fin 64) : s.stored.Keeps (s.doneTest i).stored := by
  unfold State.doneTest
  split
  · split
    · exact s.enterFinal_keeps i _ _
    · exact .refl _
  · exact .refl _

theorem State.testEnd_keeps (i : Fin 64) : s.stored.Keeps (s.testEnd i).stored := by
  unfold State.testEnd
  split
  · split
    · exact s.doneTest_keeps i
    · exact s.endingTest_keeps i
    · exact .refl _
  · exact .refl _

/-! ### Deliveries and losses (R10, R98 to R101) -/

theorem State.reportDelivery_keeps (e : PathEntry) : s.stored.Keeps (s.reportDelivery e).stored := by
  unfold State.reportDelivery
  split
  · exact (s.mapJob _ _).testEnd_keeps _
  · exact .refl _

/-- A loss report: only a job that fails gives up its open sheet, and only one that ends its chain. -/
theorem State.reportLoss_keeps (e : PathEntry) : s.stored.Keeps (s.reportLoss e).stored := by
  unfold State.reportLoss
  split
  · exact .refl _
  · dsimp only
    split
    · exact .trans (.of_eq (by simp)) (State.testEnd_keeps _ _)
    · have ha := (s.mapJob e.job.slot Job.lose).abandonOpen_keeps e.job.slot
      exact .trans (.trans ha (.of_eq (by simp))) (State.testEnd_keeps _ _)
    · exact .trans (.of_eq (by simp)) (State.testEnd_keeps _ _)

theorem State.deliverEntry_keeps (p : Fin 16) (e : PathEntry) : s.stored.Keeps (s.deliverEntry p e).stored := by
  unfold State.deliverEntry
  dsimp only
  rw [State.stallAfterLeave_stored]
  refine .trans (.of_eq ?_) (State.reportDelivery_keeps _ e)
  split <;> simp

theorem State.loseEntry_keeps (p : Fin 16) (e : PathEntry) : s.stored.Keeps (s.loseEntry p e).stored := by
  unfold State.loseEntry
  dsimp only
  rw [State.stallAfterLeave_stored]
  refine .trans (.of_eq ?_) (State.reportLoss_keeps _ e)
  split <;> simp

theorem State.loseAll_keeps (p : Fin 16) (l : List PathEntry) : s.stored.Keeps (s.loseAll p l).stored :=
  foldl_keeps (fun s e => s.loseEntry p e) (fun s e => s.loseEntry_keeps p e) l s

/-! ### Upload requests (R32, R35) -/

theorem State.beginSheet_keeps (i : Fin 64) (n : Nat) (r : SheetRecord) :
    s.stored.Keeps (s.beginSheet i n r).stored := by
  unfold State.beginSheet
  rw [State.mapJob_stored]
  exact (s.abandonOpen_keeps i).trans ((s.abandonOpen i).mapSmm_keeps _ (Smm.mapSlot_keeps i _ _ rfl))

theorem State.completeSheet_keeps (i : Fin 64) (n : Nat) (j : Job) : s.stored.Keeps (s.completeSheet i n j).stored := by
  have h := s.mapSmm_keeps _ (Smm.mapSheet_keeps i n (fun r => { r with complete := true }) s.smm)
  unfold State.completeSheet
  dsimp only
  split
  · simpa using h
  · exact h

theorem State.storeFaceData_keeps (h : Handle) (n : Nat) (j : Job) (r : SheetRecord) (chunk : List Byte) :
    s.stored.Keeps (s.storeFaceData h n j r chunk).stored := by
  have hs := s.mapSmm_keeps _ (s.smm.storeChunk_keeps h n chunk)
  unfold State.storeFaceData
  dsimp only
  split
  · exact hs.trans (State.completeSheet_keeps ..)
  · exact hs

/-! ### Job requests (R11 to R13) -/

theorem State.closeTest_keeps (h : Handle) : s.stored.Keeps (s.closeTest h).stored := by
  unfold State.closeTest
  split
  · split
    · refine .trans (.of_eq ?_) (State.enterFinal_keeps ..)
      split <;> simp
    · exact .refl _
  · exact .refl _

theorem State.closeJob_keeps (h : Handle) (j : Job) : s.stored.Keeps (s.closeJob h j).stored := by
  unfold State.closeJob
  split
  · refine .trans (.of_eq ?_) (State.closeTest_keeps ..)
    simp
  · exact .refl _

theorem State.cancelUpload_keeps (i : Fin 64) : s.stored.Keeps (s.cancelUpload i).stored := s.abandonOpen_keeps i

@[simp] theorem State.requeue_stored (h : Handle) (j : Job) : (s.requeue h j).stored = s.stored := by
  unfold State.requeue
  split <;> simp

/-! ### The meter store (chapter 8) -/

theorem Store.moveToSpare_flash (st : Store) : st.moveToSpare.flash = st.flash := by
  unfold Store.moveToSpare
  split <;> rfl

theorem Store.setVictim_flash (st : Store) : st.setVictim.flash = st.flash := by rw [Store.setVictim_marks]

theorem Store.fillStep_flash (moves : Bool) (st : Store) : (st.fillStep moves).flash = st.flash := by
  unfold Store.fillStep
  split
  · exact st.setVictim_flash
  · split
    · exact st.moveToSpare.setVictim_flash.trans st.moveToSpare_flash
    · rfl

theorem Store.toIdle_flash (st : Store) : st.toIdle.flash = st.flash := rfl

/-- The rest of a write programs slots void and the record into its slot (R153). -/
theorem Store.finishWrite_wf (w : WriteOp) (st : Store) (h : Memory.wf Config.erasedByte st.flash = true) :
    Memory.wf Config.erasedByte (st.finishWrite w).flash = true := by
  simp only [Store.finishWrite, Store.programRecord]
  exact flashProgramAll_wf _ _ _ (Store.passAll_wf w.voids st h)

theorem Store.eraseVerified_flash (k : Fin 4) (st : Store) : (st.eraseVerified k).flash = st.flash := by
  unfold Store.eraseVerified
  split
  · exact (Store.clearNext_sameIndex _ _).flash
  · rfl
  · rfl

@[simp] theorem State.storeFails_stored (r : FailReason) : (s.storeFails r).stored = s.stored := by
  rw [State.storeFails, State.notice_stored]
  exact s.mapStore_stored _ (by rfl)

@[simp] theorem State.saveDone_stored (n : Nat) : (s.saveDone n).stored = s.stored := by
  unfold State.saveDone
  split
  · rw [State.notice_stored]
    exact s.mapStore_stored _ (by rfl)
  · rfl

@[simp] theorem State.eraseFailed_stored (k : Fin 4) : (s.eraseFailed k).stored = s.stored := by
  unfold State.eraseFailed
  split
  · exact s.mapStore_stored _ (by rfl)
  · split
    · exact s.mapStore_stored _ (by rfl)
    · exact s.mapStore_stored _ (by rfl)
    · simp

@[simp] theorem State.endScan_stored : s.endScan.stored = s.stored := by
  have h : s.storeSettles.stored = s.stored := by
    unfold State.storeSettles
    dsimp only
    split
    · rw [State.storeFails_stored]; exact s.mapStore_stored _ (by rfl)
    · exact s.mapStore_stored _ (by rfl)
  unfold State.endScan State.scannedNotice
  dsimp only
  split <;> simp [h]

@[simp] theorem State.readDone_stored : s.readDone.stored = s.stored := by
  have h : s.readDone.smm = s.smm := by simp [State.readDone, State.loadMeters]
  rw [State.stored, s.readDone_index.1, h, State.stored]

@[simp] theorem State.wearOut_stored : s.wearOut.stored = s.stored := by
  unfold State.wearOut
  split
  · exact s.mapStore_stored _ (by rfl)
  · simp

/-- A write in progress programs the slots it passes void (log entry 13). -/
theorem State.advanceWrite_keeps : s.stored.Keeps s.advanceWrite.stored := by
  obtain ⟨w, n, c, -, -, e⟩ | ⟨-, e⟩ := s.advanceWrite_spec
  · rw [e]; exact ⟨.refl _, Store.passAll_wf _ _⟩
  · rw [e]; exact .refl _

theorem State.beginWrite_keeps (p : Fin 16) (x : List (Fin 4 × Nat) × Fin 4 × Nat) :
    s.stored.Keeps (s.beginWrite p x).stored :=
  .trans (.of_eq (s.mapStore_stored _ (by rfl))) (State.advanceWrite_keeps (s.mapStore _))

theorem State.completeWrite_keeps (w : WriteOp) : s.stored.Keeps (s.completeWrite w).stored := by
  unfold State.completeWrite
  rw [State.saveDone_stored]
  refine s.mapStore_keeps _ fun h => ?_
  rw [Store.fillStep_flash, Store.toIdle_flash]
  exact Store.finishWrite_wf w s.store h

theorem State.endErase_keeps (k : Fin 4) (residue : List (Nat × Byte)) :
    s.stored.Keeps (s.endErase k residue).stored := by
  have h := s.mapStore_keeps (Store.erase k residue) (flashErase_wf s.store.flash k residue)
  unfold State.endErase
  extract_lets u
  split
  · exact h.trans (.of_eq (u.mapStore_stored _ (Store.eraseVerified_flash k _)))
  · exact h.trans (.of_eq (u.eraseFailed_stored k))

/-! ### Resets (R42, R162, R208, R209) -/

theorem cutErase_wf (k : Fin 4) (l : List Host.Cell) (m : Memory) (c : Nat)
    (h : Memory.wf Config.erasedByte m = true) : Memory.wf Config.erasedByte (cutErase m k c l).1 = true := by
  induction l generalizing m c with
  | nil => exact h
  | cons x l ih =>
    refine ih _ _ ?_
    split
    · exact Memory.write_wf _ _ _ _ h
    · exact h

/-- What a hardware reset leaves of an operation it cuts off is in canonical form (log entry 6). -/
theorem Store.cutOff_wf (st : Store) (c : Nat) (h : Memory.wf Config.erasedByte st.flash = true) :
    Memory.wf Config.erasedByte (st.cutOff c).1 = true := by
  unfold Store.cutOff
  split
  · exact h
  · unfold cutWrite
    split
    · exact (cutProgram_spec _ _ _ _ h).1
    · exact (cutRecord_spec _ _ _ h).1
  · exact cutErase_wf _ _ _ _ h

theorem State.hardReset_keeps (cause : ResetCause) (pins : Pins) : s.stored.Keeps (s.hardReset cause pins).stored :=
  s.advanceWrite_keeps.trans
    (b := s.advanceWrite.stored) ⟨Smm.fresh_keeps (spoolSizeOf pins) s.advanceWrite.smm, Store.cutOff_wf _ _⟩

@[simp] theorem State.softResetPress_stored (p : Fin 16) : (s.softResetPress p).stored = s.stored := by
  unfold State.softResetPress
  split <;> simp

theorem State.softReset_keeps : s.stored.Keeps s.softReset.stored := by
  have h := foldl_stored State.softResetPress (fun s p => s.softResetPress_stored p) (List.finRange 16) s
  unfold State.softReset
  rw [State.notice_stored, State.markAll_stored]
  generalize (List.finRange 16).foldl State.softResetPress s = u at h
  exact (Stored.Keeps.of_eq h).trans ⟨Smm.fresh_keeps u.smm.size u.smm, id⟩

end

end Sys2Proof.Machine
end

section
/-! What each request's owner does to the memories. Every branch of most of them refuses, or accepts with a state whose
memories are those of before; the upload requests, the ends of jobs, write-offs and resets keep the laws. -/

namespace Sys2Proof.Machine

@[simp] theorem refuse_state (st : Status) (s : State) : (refuse st s).state = s := rfl
@[simp] theorem accept_state (body : List Byte) (s : State) : (accept body s).state = s := rfl

section
variable (s : State) (body : List Byte)

/-! ### The frames of requests (R2, R197) -/

/-- A request keeps what its owner's answer keeps: dropped or refused by the link it touches no memory. -/
theorem takeRequest_keeps (typ tag : Byte) (inScan : Bool) (own : State → Answer)
    (h : s.stored.Keeps (own s).state.stored) : s.stored.Keeps (takeRequest typ tag inScan own s).stored := by
  obtain ⟨e, -⟩ | ⟨-, ⟨e, -⟩ | e⟩ := takeRequest_cases typ tag inScan own s
  · rw [e]; exact .refl _
  · rw [e]; exact .refl _
  · rw [e]; exact h

theorem longHandleRequest_keeps (own : List Byte → Handle → Job → State → Answer)
    (h : ∀ l i j, s.stored.Keeps (own l i j s).state.stored) :
    s.stored.Keeps (longHandleRequest own body s).state.stored := by
  unfold longHandleRequest
  split
  · unfold withJob
    split
    · exact .refl _
    · split
      · exact .refl _
      · exact h _ _ _
  · exact .refl _

theorem handleRequest_keeps (own : Handle → Job → State → Answer)
    (h : ∀ i j, s.stored.Keeps (own i j s).state.stored) :
    s.stored.Keeps (handleRequest body own s).state.stored := by
  refine longHandleRequest_keeps s body _ fun l i j => ?_
  split
  · exact h i j
  · exact .refl _

theorem pressRequest_keeps (own : Fin 16 → State → Answer) (h : ∀ p, s.stored.Keeps (own p s).state.stored) :
    s.stored.Keeps (pressRequest body own s).state.stored := by
  unfold pressRequest
  split
  · split
    · exact h _
    · exact .refl _
  · exact .refl _

theorem accountRequest_stored (own : Fin 256 → State → Answer) (h : ∀ n, (own n s).state.stored = s.stored) :
    (accountRequest body own s).state.stored = s.stored := by
  unfold accountRequest
  split
  · split
    · exact h _
    · rfl
  · rfl

theorem pressSetRequest_stored (own : List (Fin 16) → State → Answer) (h : ∀ l, (own l s).state.stored = s.stored) :
    (pressSetRequest body own s).state.stored = s.stored := by
  unfold pressSetRequest
  split
  · exact h _
  · rfl

theorem noBody_stored (own : State → Answer) (h : (own s).state.stored = s.stored) :
    (noBody body own s).state.stored = s.stored := by
  unfold noBody
  split
  · exact h
  · rfl

/-! ### Requests of the link (chapter 11) -/

@[simp] theorem State.engineToRun_stored (p : Fin 16) : (s.engineToRun p).stored = s.stored := by
  unfold State.engineToRun
  split <;> simp

@[simp] theorem State.toRun_stored : s.toRun.stored = s.stored :=
  (foldl_stored State.engineToRun (fun s p => s.engineToRun_stored p) _ _).trans rfl

theorem modeSet_stored : (modeSet body s).state.stored = s.stored := by
  unfold modeSet acceptMode State.toQuiescing
  repeat' split
  all_goals simp

theorem fetchNotices_stored : (fetchNotices body s).state.stored = s.stored := by
  unfold fetchNotices
  repeat' split
  all_goals simp

theorem attnMask_stored : (attnMask body s).state.stored = s.stored := by unfold attnMask; split <;> simp

theorem attnClear_stored : (attnClear body s).state.stored = s.stored := by unfold attnClear; split <;> simp

theorem State.reset1_keeps (tag : Byte) (pins : Pins) : s.stored.Keeps (s.reset1 tag body pins).stored := by
  unfold State.reset1
  split
  · exact s.hardReset_keeps _ pins
  · refine takeRequest_keeps s _ _ _ _ ?_
    split
    · split
      · exact s.softReset_keeps
      · exact .refl _
    · exact .refl _

/-! ### Job and upload requests (chapters 1 and 2) -/

@[simp] theorem State.openJob_stored (i : Fin 64) (v : JobOpenValues) (f : Fin 32) (c : Fin 8) :
    (s.openJob i v f c).stored = s.stored := by
  unfold State.openJob
  dsimp only
  split <;> simp

@[simp] theorem State.openChecked_stored (v : JobOpenValues) : (s.openChecked v).state.stored = s.stored := by
  unfold State.openChecked
  split
  · rfl
  · split
    · rfl
    · dsimp only
      split <;> simp

theorem jobOpen_stored : (jobOpen body s).state.stored = s.stored := by
  unfold jobOpen
  repeat' split
  all_goals simp

theorem sheetBegin_keeps (h : Handle) (j : Job) : s.stored.Keeps (sheetBegin body h j s).state.stored := by
  unfold sheetBegin
  split
  · exact .refl _
  · split
    · exact .refl _
    · split
      · exact .refl _
      · split
        · exact .refl _
        · split
          · exact .refl _
          · exact s.beginSheet_keeps _ _ _

theorem faceData_keeps (h : Handle) (j : Job) : s.stored.Keeps (faceData body h j s).state.stored := by
  unfold faceData
  split
  · exact .refl _
  · split
    · exact .refl _
    · split
      · exact .refl _
      · split
        · exact .refl _
        · split
          · exact .refl _
          · exact s.storeFaceData_keeps _ _ _ _ _

theorem jobClose_keeps (h : Handle) (j : Job) : s.stored.Keeps (jobClose h j s).state.stored := by
  unfold jobClose
  split
  · exact .refl _
  · split
    · exact .refl _
    · split
      · exact .refl _
      · split
        · exact .refl _
        · exact s.closeJob_keeps h j

theorem jobCancel_keeps (h : Handle) (j : Job) : s.stored.Keeps (jobCancel h j s).state.stored := by
  unfold jobCancel
  dsimp only
  split
  · exact (s.cancelUpload_keeps h.slot).trans (State.enterFinal_keeps ..)
  · exact ((s.mapRu (Ru.remove j.cls h)).cancelUpload_keeps h.slot).trans (State.enterFinal_keeps ..)
  · split
    · exact (s.cancelUpload_keeps h.slot).trans (State.enterFinal_keeps ..)
    · exact s.cancelUpload_keeps h.slot
  · exact .refl _

theorem jobList_stored : (jobList body s).state.stored = s.stored := by
  unfold jobList
  repeat' split
  all_goals simp

theorem jobRelease_stored (h : Handle) (j : Job) : (jobRelease h j s).state.stored = s.stored := by
  unfold jobRelease
  split <;> simp

theorem jobRequeue_stored (h : Handle) (j : Job) : (jobRequeue h j s).state.stored = s.stored := by
  unfold jobRequeue
  repeat' split
  all_goals simp

/-! ### Filter, class and press requests (chapters 3 to 5) -/

theorem filterSet_stored : (filterSet body s).state.stored = s.stored := by
  unfold filterSet filterWrite
  repeat' split
  all_goals simp

theorem filterEnable_stored : (filterEnable body s).state.stored = s.stored := by
  unfold filterEnable
  repeat' split
  all_goals simp

theorem filterQuery_stored : (filterQuery body s).state.stored = s.stored := by
  unfold filterQuery
  repeat' split
  all_goals simp

theorem classSet_stored : (classSet body s).state.stored = s.stored := by
  unfold classSet classWrite
  repeat' split
  all_goals simp

theorem classQuery_stored : (classQuery body s).state.stored = s.stored := by
  unfold classQuery
  repeat' split
  all_goals simp

@[simp] theorem State.checkSilence_stored (p : Fin 16) : (s.checkSilence p).stored = s.stored := by
  unfold State.checkSilence
  repeat' split
  all_goals simp

@[simp] theorem State.moveZone_stored (p : Fin 16) (z : Fin 4) : (s.moveZone p z).stored = s.stored := by
  unfold State.moveZone
  dsimp only
  split <;> simp

@[simp] theorem State.setProfile_stored (p : Fin 16) (f : Profile) : (s.setProfile p f).stored = s.stored := by
  unfold State.setProfile
  split <;> simp

theorem pressSet_stored : (pressSet body s).state.stored = s.stored := by
  unfold pressSet
  repeat' split
  all_goals simp

theorem pressEnable_stored (p : Fin 16) : (pressEnable p s).state.stored = s.stored := by
  unfold pressEnable State.enable
  split <;> simp

@[simp] theorem State.disable_stored (p : Fin 16) : (s.disable p).stored = s.stored := by
  unfold State.disable State.emptyTableOf
  dsimp only
  split <;> simp

theorem pressDisable_stored (p : Fin 16) : (pressDisable p s).state.stored = s.stored := by
  unfold pressDisable
  repeat' split
  all_goals simp

theorem State.writeOff_keeps (p : Fin 16) : s.stored.Keeps (s.writeOff p).stored := by
  simpa [State.writeOff] using s.loseAll_keeps p _

theorem pressWriteoff_keeps (p : Fin 16) : s.stored.Keeps (pressWriteoff p s).state.stored := by
  unfold pressWriteoff
  split
  · exact .refl _
  · exact .refl _
  · split
    · exact s.writeOff_keeps p
    · exact .refl _

/-! ### Plan, account, meter and store requests (chapters 6 to 8) -/

theorem planSet_stored : (planSet body s).state.stored = s.stored := by
  unfold planSet
  repeat' split
  all_goals simp

theorem planQuery_stored : (planQuery body s).state.stored = s.stored := by
  unfold planQuery
  repeat' split
  all_goals simp

theorem accountOpen_stored : (accountOpen body s).state.stored = s.stored := by
  unfold accountOpen accountOpenAt
  repeat' split
  all_goals simp

@[simp] theorem accountSetAt_stored (n : Fin 256) (plan : Fin 8) (limit : Int) (suspend : Bool) :
    (accountSetAt n plan limit suspend s).state.stored = s.stored := by
  unfold accountSetAt
  dsimp only
  split
  · rfl
  · split <;> simp

theorem accountSet_stored : (accountSet body s).state.stored = s.stored := by
  unfold accountSet
  repeat' split
  all_goals simp

@[simp] theorem accountAdjustAt_stored (n : Fin 256) (delta : Int) :
    (accountAdjustAt n delta s).state.stored = s.stored := by
  unfold accountAdjustAt
  extract_lets a d
  split
  · rfl
  · split <;> simp

theorem accountAdjust_stored : (accountAdjust body s).state.stored = s.stored := by
  unfold accountAdjust
  repeat' split
  all_goals simp

theorem accountQuery_stored (n : Fin 256) : (accountQuery n s).state.stored = s.stored := by
  unfold accountQuery
  split <;> simp

theorem accountPeriod_stored (n : Fin 256) : (accountPeriod n s).state.stored = s.stored := by
  unfold accountPeriod
  dsimp only
  split <;> simp

theorem accountClose_stored (n : Fin 256) : (accountClose n s).state.stored = s.stored := by
  unfold accountClose
  dsimp only
  repeat' split
  all_goals simp

@[simp] theorem quoteForAccount_stored (n : Fin 256) (g : Fin 8) (x : QuotedFace) (y : Option QuotedFace) :
    (quoteForAccount n g x y s).state.stored = s.stored := by
  unfold quoteForAccount
  dsimp only
  split <;> simp

theorem chargeQuote_stored : (chargeQuote body s).state.stored = s.stored := by
  unfold chargeQuote quoteChecked
  repeat' split
  all_goals simp

theorem meterSave_stored (l : List (Fin 16)) : (meterSave l s).state.stored = s.stored := by
  unfold meterSave State.saveMeters
  split
  · rfl
  · rw [accept_state, State.mapStore_stored _ _ (by rfl), State.markAll_stored]

/-! ### Alert and zone requests (chapters 9 and 10) -/

theorem alertModeSet_stored : (alertModeSet body s).state.stored = s.stored := by
  unfold alertModeSet
  repeat' split
  all_goals simp

theorem alertList_stored : (alertList body s).state.stored = s.stored := by
  unfold alertList
  repeat' split
  all_goals simp

theorem alertClear_stored : (alertClear body s).state.stored = s.stored := by
  unfold alertClear alertClearAt
  repeat' split
  all_goals simp

@[simp] theorem State.acknowledge_stored (z : Fin 4) (l : List (Fin 16)) (named : Option (Fin 16)) (src : AckSource) :
    (s.acknowledge z l named src).stored = s.stored := by
  have h := foldl_stored State.ackPress (fun _ _ => rfl) l s
  unfold State.acknowledge
  split
  · rfl
  · simp [h]

theorem alertAck_stored : (alertAck body s).state.stored = s.stored := by
  unfold alertAck ackAnswer
  repeat' split
  all_goals simp

theorem zoneQuery_stored : (zoneQuery body s).state.stored = s.stored := by
  unfold zoneQuery
  repeat' split
  all_goals simp

end

end Sys2Proof.Machine
end

section
/-! The invariants of the memories along every step: what each command of the table does to them, and so what `exec` and
`step` do. -/

namespace Sys2Proof.Machine

section
variable (s : State)

/-! ### Events of the links, the timers and the floor -/

@[simp] theorem State.discard_stored (n : Nat) (typ tag : Option Byte) : (s.discard n typ tag).stored = s.stored := rfl

theorem State.onlineFrame_keeps (p : Fin 16) (f : State → State)
    (h : ∀ u : State, u.stored.Keeps (f u).stored) : s.stored.Keeps (s.onlineFrame p f).stored := by
  unfold State.onlineFrame
  split
  · exact .trans (.of_eq (s.heard_stored p)) (h _)
  · exact .refl _

@[simp] theorem State.linkUp_stored (p : Fin 16) (r : Reported) : (s.linkUp p r).stored = s.stored := by
  simp [State.linkUp]

/-- A restart loses every entry of the path (R74). -/
theorem State.restart_keeps (p : Fin 16) (r : Reported) : s.stored.Keeps (s.restart p r).stored := by
  unfold State.restart
  extract_lets changed held h path s1 s2 s3 s4 s5
  have h5 : s5.stored = s3.stored := by
    simp only [s5, s4, State.notice_stored]
    split <;> simp
  rw [State.quiesceTest_stored, State.opportunityIfStill_stored, h5]
  exact .trans (.of_eq (by simp [s2, s1])) (s2.loseAll_keeps p path)

theorem State.takeHello_keeps (p : Fin 16) (r : Reported) : s.stored.Keeps (s.takeHello p r).stored := by
  unfold State.takeHello
  split
  · exact .refl _
  · exact .of_eq (s.linkUp_stored p r)
  · exact .trans (.of_eq (s.heard_stored p)) (State.restart_keeps ..)

@[simp] theorem State.takeWindow_stored (p : Fin 16) (w : Byte) : (s.takeWindow p w).stored = s.stored := by
  have h (u : State) (a b : Nat) : (u.windowNotice p a b).stored = u.stored := by
    unfold State.windowNotice
    split <;> simp
  unfold State.takeWindow
  dsimp only
  split <;> simp [h]

@[simp] theorem State.takeTaken_stored (p : Fin 16) (tag : Half) : (s.takeTaken p tag).stored = s.stored := by
  unfold State.takeTaken
  split <;> simp

@[simp] theorem State.misfeed_stored (p : Fin 16) (n : Nat) : (s.misfeed p n).stored = s.stored := by
  unfold State.misfeed
  split <;> simp

/-- A delivery, and the losses of the entries it skips (R98, R99). -/
theorem State.takeDelivered_keeps (p : Fin 16) (tag : Half) : s.stored.Keeps (s.takeDelivered p tag).stored := by
  unfold State.takeDelivered
  split
  · exact .of_eq (s.protocol_stored p _)
  · rw [State.quiesceTest_stored, State.opportunityIfStill_stored]
    exact .trans (.trans (.of_eq (s.misfeed_stored p _)) (State.loseAll_keeps ..)) (State.deliverEntry_keeps ..)

@[simp] theorem State.unknownTags_stored (p : Fin 16) (b : Bool) : (s.unknownTags p b).stored = s.stored := by
  unfold State.unknownTags
  split <;> simp

@[simp] theorem State.afterLosses_stored (p : Fin 16) (l : List PathEntry) (h : Option Handle) :
    (s.afterLosses p l h).stored = s.stored := by
  unfold State.afterLosses
  split <;> simp

/-- A fault and the losses it names (R76). -/
theorem State.takeFault_keeps (p : Fin 16) (k : AlertKind) (d : Byte) (tags : List Half) :
    s.stored.Keeps (s.takeFault p k d tags).stored := by
  unfold State.takeFault
  dsimp only
  rw [State.quiesceTest_stored, State.afterLosses_stored, State.unknownTags_stored]
  exact .trans (.of_eq (s.alert_stored p k d)) (State.loseAll_keeps ..)

@[simp] theorem State.badCheck_stored (p : Fin 16) : (s.badCheck p).stored = s.stored := by
  unfold State.badCheck
  split <;> simp

@[simp] theorem State.unbindExpiry_stored (p : Fin 16) : (s.unbindExpiry p).stored = s.stored := by
  unfold State.unbindExpiry
  split
  · split <;> simp
  · rfl

@[simp] theorem State.endTransmission_stored (p : Fin 16) (t : Transmission) :
    (s.endTransmission p t).stored = s.stored := by simp [State.endTransmission]

@[simp] theorem State.takeQueueEvent_stored (c : Fin 8) : (s.takeQueueEvent c).stored = s.stored :=
  (foldl_stored (fun s p => s.bindEvent p) (fun s p => s.bindEvent_stored p) _ _).trans rfl

@[simp] theorem State.buttonAt_stored (z : Fin 4) : (s.buttonAt z).stored = s.stored := by
  unfold State.buttonAt
  split <;> simp

/-! ### Every command, and every step -/

/-- The next state of an outcome that is one. -/
theorem keeps_of_next {u t : State} (h : (Host.Outcome.next u : Host.Outcome State Fault Refusal) = .next t)
    (k : s.stored.Keeps u.stored) : s.stored.Keeps t.stored := Host.Outcome.next.inj h ▸ k

/-- A command that acts on a condition and passes without effect otherwise (log entry 8). -/
theorem ite_keeps {c : Prop} [Decidable c] {u : State} (k : s.stored.Keeps u.stored) :
    s.stored.Keeps (if c then u else s).stored := by
  split
  · exact k
  · exact .refl _

theorem execStoreWriteBegin_keeps (t : State) (h : execStoreWriteBegin s = .next t) : s.stored.Keeps t.stored := by
  unfold execStoreWriteBegin at h
  split at h
  · split at h
    · exact keeps_of_next s h (.of_eq s.wearOut_stored)
    · split at h
      · exact keeps_of_next s h (s.beginWrite_keeps _ _)
      · cases h
      · exact keeps_of_next s h (.refl _)
  · exact keeps_of_next s h (.refl _)

/-- Every command keeps the canonical forms of both memories and the partition of the extents. -/
theorem exec_keeps (c : Instr) (t : State) (h : exec c s = .next t) : s.stored.Keeps t.stored := by
  have request {typ tag : Byte} {inScan : Bool} {own : State → Answer}
      (k : s.stored.Keeps (own s).state.stored) : s.stored.Keeps (takeRequest typ tag inScan own s).stored :=
    takeRequest_keeps s typ tag inScan own k
  cases c with
  | powerOnReset pins => exact keeps_of_next s h (s.hardReset_keeps _ pins)
  | rstPinReset pins => exact keeps_of_next s h (s.hardReset_keeps _ pins)
  | resetHard tag body pins => exact keeps_of_next s h (s.reset1_keeps body tag pins)
  | resetSoft tag body => exact keeps_of_next s h (s.reset1_keeps body tag s.pins)
  | identify tag body => exact keeps_of_next s h (request (.of_eq (noBody_stored s body _ rfl)))
  | status tag body => exact keeps_of_next s h (request (.of_eq (noBody_stored s body _ rfl)))
  | modeSetRun tag body => exact keeps_of_next s h (request (.of_eq (modeSet_stored s body)))
  | modeSetQuiesce tag body => exact keeps_of_next s h (request (.of_eq (modeSet_stored s body)))
  | fetchNotices tag body => exact keeps_of_next s h (request (.of_eq (fetchNotices_stored s body)))
  | attnMask tag body => exact keeps_of_next s h (request (.of_eq (attnMask_stored s body)))
  | attnClear tag body => exact keeps_of_next s h (request (.of_eq (attnClear_stored s body)))
  | jobOpen tag body => exact keeps_of_next s h (request (.of_eq (jobOpen_stored s body)))
  | sheetBegin tag body => exact keeps_of_next s h (request (longHandleRequest_keeps s body _ (sheetBegin_keeps s)))
  | faceData tag body => exact keeps_of_next s h (request (longHandleRequest_keeps s body _ (faceData_keeps s)))
  | jobClose tag body => exact keeps_of_next s h (request (handleRequest_keeps s body _ (jobClose_keeps s)))
  | jobCancel tag body => exact keeps_of_next s h (request (handleRequest_keeps s body _ (jobCancel_keeps s)))
  | jobQuery tag body => exact keeps_of_next s h (request (handleRequest_keeps s body _ fun _ _ => .refl _))
  | jobList tag body => exact keeps_of_next s h (request (.of_eq (jobList_stored s body)))
  | jobRelease tag body =>
    exact keeps_of_next s h (request (handleRequest_keeps s body _ fun i j => .of_eq (jobRelease_stored s i j)))
  | jobRequeue tag body =>
    exact keeps_of_next s h (request (handleRequest_keeps s body _ fun i j => .of_eq (jobRequeue_stored s i j)))
  | filterSet tag body => exact keeps_of_next s h (request (.of_eq (filterSet_stored s body)))
  | filterEnable tag body => exact keeps_of_next s h (request (.of_eq (filterEnable_stored s body)))
  | filterQuery tag body => exact keeps_of_next s h (request (.of_eq (filterQuery_stored s body)))
  | classSet tag body => exact keeps_of_next s h (request (.of_eq (classSet_stored s body)))
  | classQuery tag body => exact keeps_of_next s h (request (.of_eq (classQuery_stored s body)))
  | pressSet tag body => exact keeps_of_next s h (request (.of_eq (pressSet_stored s body)))
  | pressEnable tag body =>
    exact keeps_of_next s h (request (pressRequest_keeps s body _ fun p => .of_eq (pressEnable_stored s p)))
  | pressDisable tag body =>
    exact keeps_of_next s h (request (pressRequest_keeps s body _ fun p => .of_eq (pressDisable_stored s p)))
  | pressQuery tag body => exact keeps_of_next s h (request (pressRequest_keeps s body _ fun _ => .refl _))
  | pressWriteoff tag body => exact keeps_of_next s h (request (pressRequest_keeps s body _ (pressWriteoff_keeps s)))
  | planSet tag body => exact keeps_of_next s h (request (.of_eq (planSet_stored s body)))
  | planQuery tag body => exact keeps_of_next s h (request (.of_eq (planQuery_stored s body)))
  | accountOpen tag body => exact keeps_of_next s h (request (.of_eq (accountOpen_stored s body)))
  | accountSet tag body => exact keeps_of_next s h (request (.of_eq (accountSet_stored s body)))
  | accountAdjust tag body => exact keeps_of_next s h (request (.of_eq (accountAdjust_stored s body)))
  | accountQuery tag body =>
    exact keeps_of_next s h (request (.of_eq (accountRequest_stored s body _ (accountQuery_stored s))))
  | accountPeriod tag body =>
    exact keeps_of_next s h (request (.of_eq (accountRequest_stored s body _ (accountPeriod_stored s))))
  | accountClose tag body =>
    exact keeps_of_next s h (request (.of_eq (accountRequest_stored s body _ (accountClose_stored s))))
  | chargeQuote tag body => exact keeps_of_next s h (request (.of_eq (chargeQuote_stored s body)))
  | meterRead tag body => exact keeps_of_next s h (request (.of_eq (pressSetRequest_stored s body _ fun _ => rfl)))
  | meterSave tag body =>
    exact keeps_of_next s h (request (.of_eq (pressSetRequest_stored s body _ (meterSave_stored s))))
  | storeQuery tag body => exact keeps_of_next s h (request (.of_eq (noBody_stored s body _ rfl)))
  | alertModeSet tag body => exact keeps_of_next s h (request (.of_eq (alertModeSet_stored s body)))
  | alertList tag body => exact keeps_of_next s h (request (.of_eq (alertList_stored s body)))
  | alertClear tag body => exact keeps_of_next s h (request (.of_eq (alertClear_stored s body)))
  | alertAckPress tag body => exact keeps_of_next s h (request (.of_eq (alertAck_stored s body)))
  | alertAckZone tag body => exact keeps_of_next s h (request (.of_eq (alertAck_stored s body)))
  | zoneQuery tag body => exact keeps_of_next s h (request (.of_eq (zoneQuery_stored s body)))
  | unknownRequest typ tag body =>
    refine keeps_of_next s h ?_
    split
    · exact .refl _
    · exact request (.refl _)
  | requestDropped typ tag body => exact keeps_of_next s h (ite_keeps s (.of_eq s.dropRequest_stored))
  | frameBadLength len => exact keeps_of_next s h (ite_keeps s (.of_eq (s.discard_stored ..)))
  | frameBadCheck typ tag body check => exact keeps_of_next s h (ite_keeps s (.of_eq (s.discard_stored ..)))
  | csDeasserted mosi =>
    refine keeps_of_next s h ?_
    split
    · exact .refl _
    · exact .refl _
  | replyClockedOut => exact keeps_of_next s h (.refl _)
  | hello p model serial caps grades win => exact keeps_of_next s h (s.takeHello_keeps p _)
  | window p win => exact keeps_of_next s h (s.onlineFrame_keeps p _ fun u => .of_eq (u.takeWindow_stored p win))
  | taken p tag => exact keeps_of_next s h (s.onlineFrame_keeps p _ fun u => .of_eq (u.takeTaken_stored p tag))
  | delivered p tag => exact keeps_of_next s h (s.onlineFrame_keeps p _ fun u => u.takeDelivered_keeps p tag)
  | fault p kind detail tags =>
    refine keeps_of_next s h (s.onlineFrame_keeps p _ fun u => ?_)
    split
    · exact u.takeFault_keeps p _ detail tags
    · exact .of_eq (u.protocol_stored p _)
  | clear p kind detail =>
    exact keeps_of_next s h (s.onlineFrame_keeps p _ fun u => .of_eq (u.conditionEnd_stored p _ _))
  | beat p => exact keeps_of_next s h (s.onlineFrame_keeps p _ fun u => .refl _)
  | feedBadCheck p typ len body check => exact keeps_of_next s h (ite_keeps s (.of_eq (s.badCheck_stored p)))
  | feedBadFrame p typ body =>
    exact keeps_of_next s h (ite_keeps s (s.onlineFrame_keeps p _ fun u => .of_eq (u.protocol_stored p _)))
  | probeTimerExpiry p => exact keeps_of_next s h (ite_keeps s (.of_eq (s.probe_stored p)))
  | silenceDeadline p => exact keeps_of_next s h (ite_keeps s (.of_eq (s.alert_stored p _ _)))
  | stallDeadline p =>
    refine keeps_of_next s h ?_
    split
    · exact .of_eq (s.raiseStall_stored p _)
    · exact .refl _
  | unbindDeadline p => exact keeps_of_next s h (ite_keeps s (.of_eq (s.unbindExpiry_stored p)))
  | retryDeadline p kind => exact keeps_of_next s h (ite_keeps s (.of_eq (s.removeEntries_stored p _ _)))
  | transmissionEnd p =>
    refine keeps_of_next s h ?_
    split
    · exact .of_eq (s.endTransmission_stored p _)
    · exact .refl _
  | queueEvent cls => exact keeps_of_next s h (ite_keeps s (.of_eq (s.takeQueueEvent_stored cls)))
  | availabilityRiseReport p account =>
    exact keeps_of_next s h (ite_keeps s (.of_eq (State.opportunity_stored (s.mapMu _) p)))
  | ackInputChange zone active => exact keeps_of_next s h (.refl _)
  | buttonDeadline zone => exact keeps_of_next s h (ite_keeps s (.of_eq (s.buttonAt_stored zone)))
  | storeWriteBegin => exact execStoreWriteBegin_keeps s t h
  | storeWriteComplete =>
    refine keeps_of_next s h ?_
    split
    · exact s.completeWrite_keeps _
    · exact .refl _
  | storeEraseBegin =>
    refine keeps_of_next s h ?_
    split
    · exact ite_keeps s (.of_eq (s.mapStore_stored _ (by rfl)))
    · exact .refl _
  | storeEraseEnd residue =>
    refine keeps_of_next s h ?_
    split
    · exact s.endErase_keeps _ residue
    · exact .refl _
  | scanReadDone => exact keeps_of_next s h (ite_keeps s (.of_eq s.readDone_stored))
  | scanEnd => exact keeps_of_next s h (ite_keeps s (.of_eq s.endScan_stored))

theorem State.tick_keeps : s.stored.Keeps s.tick.stored := by
  have k := State.advanceWrite_keeps { s with tb := s.tb + 1 }
  unfold State.tick
  extract_lets u
  split
  exact k

/-- Every step, a millisecond of an empty queue included, keeps them too. -/
theorem step_keeps (t : State) (h : step s = .next t) : s.stored.Keeps t.stored := by
  unfold step at h
  split at h
  · exact keeps_of_next s h s.tick_keeps
  · next c rest _ => exact exec_keeps { s with pending := rest } c t h

end

/-- Settles O4: both memories keep their canonical form, since every command does. -/
theorem memoriesStayCanonical : Obligations.MemoriesStayCanonical := by
  intro s t hs h
  have k := step_keeps s t h
  exact ⟨k.smm.mem hs.1, k.flash hs.2⟩

/-- Settles O5: free list and chains stay a partition of the extents, since every command keeps it. -/
theorem extentsFreeOrChained : Obligations.ExtentsFreeOrChained := by
  intro s t hs h
  exact (step_keeps s t h).smm.extents hs

end Sys2Proof.Machine
end

section
/-! SHEET_BEGIN (R30 to R33): the body of the request read back, the faces settled by R31, and the state in which the next
sheet is open, an open one abandoned before it. -/

namespace Sys2Proof.Machine

/-! ### Handles (R2) -/

/-- The slot of a job that a handle names holds that generation and that record. -/
theorem State.jobOf_slot {s : State} {h : Handle} {j : Job} (hj : s.jobOf h = some j) :
    s.jobs[h.slot] = ⟨h.gen, some j⟩ := by
  unfold State.jobOf at hj
  split at hj
  · next hg =>
    cases hs : s.jobs[h.slot] with
    | mk gen job =>
      rw [hs] at hj hg
      obtain ⟨rfl, -⟩ := hg
      rw [show job = some j from hj]
  · cases hj

/-- A request whose body begins with the bytes of a handle that names a job goes to its own rule with the rest. -/
theorem longHandleRequest_bytes (own : List Byte → Handle → Job → State → Answer) (h : Handle) (l : List Byte)
    {s : State} {j : Job} (hj : s.jobOf h = some j) : longHandleRequest own (h.bytes ++ l) s = own l h j s := by
  have hb : (BitVec.ofNat 8 h.slot.val : Byte).toNat = h.slot.val := byte_index 64 h.slot (by omega)
  simp [longHandleRequest, withJob, Handle.bytes, u8, hb, hj]

/-! ### The faces of a SHEET_BEGIN (R30, R31) -/

/-- The bytes of a declared face. -/
def faceBytes (ink : Ink) (cov : Byte) (len : Nat) : List Byte := u8 ink.code ++ [cov] ++ u24 len

/-- A face as declared. -/
def declOf (ink : Ink) (cov : Byte) (len : Nat) : FaceDecl := ⟨BitVec.ofNat 8 ink.code, cov.toNat, len⟩

/-- The recorded face of a declared one in a job of an ink (R31). -/
def settledFace (job ink : Ink) (cov : Byte) (len : Nat) : Face :=
  if ink = .color ∧ job = .color then ⟨.color, min 100 cov.toNat, len⟩ else ⟨.mono, 0, len⟩

/-- Whether recording a declared face changes it (R31). -/
def changedFace (job ink : Ink) (cov : Byte) : Bool := decide (ink = .color ∧ (job = .mono ∨ 100 < cov.toNat))

/-- A declared face as recorded, with its changed flag. -/
def settledPair (job ink : Ink) (cov : Byte) (len : Nat) : Face × Bool :=
  (settledFace job ink cov len, changedFace job ink cov)

theorem faceDecls_faceBytes (ink : Ink) (cov : Byte) (len : Nat) (rest : List Byte) (h : len < 2 ^ 24) :
    faceDecls (faceBytes ink cov len ++ rest) = (faceDecls rest).map (declOf ink cov len :: ·) := by
  simp [faceBytes, declOf, u8, u24, u16, faceDecls, be24_u24 len h]

/-- A declared face of at least one byte passes the values check and is settled as R31 says. -/
theorem declOf_face (job ink : Ink) (cov : Byte) (len : Nat) (h : 1 ≤ len) :
    (declOf ink cov len).face job = some (settledPair job ink cov len) := by
  have hi : ink? (declOf ink cov len).ink = some ink := ink?_code ink
  have hs : (declOf ink cov len).settle job ink = settledPair job ink cov len := by
    cases ink
    · rfl
    · cases job
      · rfl
      · exact Prod.ext rfl (decide_eq_decide.2 (by simp [declOf]))
  simp only [FaceDecl.face, hi, hs]
  exact if_pos h

theorem settledFace_length (job ink : Ink) (cov : Byte) (len : Nat) : (settledFace job ink cov len).length = len := by
  unfold settledFace
  split <;> rfl

/-! ### The state in which the next sheet is open (R32, R33) -/

/-- The write position at which the next sheet of a job begins: where its open sheet began, if it has one whose first byte
has come. -/
def State.nextStart (s : State) (i : Fin 64) (j : Job) : WritePos :=
  ((j.openSheet.bind (s.smm.sheet? i)).map (s.smm.abandonPos i)).getD s.smm.slots[i].wpos

/-- An open sheet abandoned: its record is gone, and the write position back where it began. -/
theorem State.abandonOpen_eq {s : State} {h : Handle} {j : Job} {r : SheetRecord} (hj : s.jobOf h = some j)
    (ho : j.openSheet = some (j.sheets + 1)) (hr : s.smm.sheet? h.slot (j.sheets + 1) = some r) :
    s.abandonOpen h.slot =
      { s with
        jobs := s.jobs.set h.slot ⟨h.gen, some { j with openSheet := none }⟩
        smm := s.smm.mapSlot h.slot fun sp =>
          { sp with wpos := s.nextStart h.slot j, sheets := sp.sheets.take j.sheets } } := by
  have hp : s.nextStart h.slot j = s.smm.abandonPos h.slot r := by simp [State.nextStart, ho, hr]
  simp [State.abandonOpen, Smm.abandon, hp, ho, hr, State.mapSmm, State.mapJob, State.mapSlot, State.jobOf_slot hj]

/-- Sheet N + 1 begun: any sheet behind the first N is gone, the new record stands, and the sheet is open. -/
theorem State.beginSheet_eq {s : State} {h : Handle} {j : Job} (r : SheetRecord) (hj : s.jobOf h = some j)
    (ho : ∀ n, j.openSheet = some n → n = j.sheets + 1 ∧ ∃ r, s.smm.sheet? h.slot n = some r) :
    s.beginSheet h.slot (j.sheets + 1) r =
      { s with
        jobs := s.jobs.set h.slot ⟨h.gen, some { j with openSheet := some (j.sheets + 1) }⟩
        smm := { s.smm with
          slots := s.smm.slots.set h.slot { s.smm.slots[h.slot] with
            wpos := s.nextStart h.slot j
            sheets := s.smm.slots[h.slot].sheets.take j.sheets ++ [r] } } } := by
  have hs := State.jobOf_slot hj
  cases hop : j.openSheet with
  | none =>
    have ha : s.abandonOpen h.slot = s := by simp [State.abandonOpen, hs, hop]
    have hp : s.nextStart h.slot j = s.smm.slots[h.slot].wpos := by simp [State.nextStart, hop]
    simp [State.beginSheet, ha, hp, State.mapSmm, Smm.mapSlot, State.mapJob, State.mapSlot, hs]
  | some n =>
    obtain ⟨rfl, r0, hr⟩ := ho n hop
    simp [State.beginSheet, State.abandonOpen_eq hj hop hr, State.mapSmm, Smm.mapSlot, State.mapJob, State.mapSlot,
      List.take_take]

/-! ### The request -/

/-- A SHEET_BEGIN that passes its checks (R30) is answered with the record of the next sheet. -/
theorem exec_sheetBegin_accepted {s : State} {h : Handle} {j : Job} {l : List Byte} {decls : List FaceDecl}
    {x : Face × Bool} {y : Option (Face × Bool)} (tag : Byte) (ht : s.takes = true) (hj : s.jobOf h = some j)
    (hb : sheetBody l = some decls) (hc : j.closed = false) (hf : facesOf j.ink decls = some (x, y))
    (hy : y.isSome = true → j.sides = .duplex) (hn : j.sheets < 4096) :
    exec (.sheetBegin tag (h.bytes ++ l)) s =
      .next (State.reply 0x11 tag (if j.openSheet.isSome then .abandoned else .ok)
        (u16 (j.sheets + 1) ++ list8 faceReply (x :: y.toList) ++ u32 (newSheet x y).total)
        (s.beginSheet h.slot (j.sheets + 1) (newSheet x y))) := by
  have h1 : ¬ (y.isSome = true ∧ j.sides = .simplex) := fun ⟨a, b⟩ => by rw [hy a] at b; cases b
  have h2 : ¬ (j.openSheet.isNone = true ∧ Config.maxSheets ≤ j.sheets) := fun ⟨_, b⟩ => absurd hn (Nat.not_lt.2 b)
  show Host.Outcome.next (takeRequest 0x11 tag false (longHandleRequest sheetBegin (h.bytes ++ l)) s) = _
  rw [takeRequest_taken _ _ _ _ _ ht, longHandleRequest_bytes _ _ _ hj]
  simp only [sheetBegin, hb, hc, hf, if_neg h1, if_neg h2, Bool.false_eq_true, if_false]

theorem sheetBody_one (ink : Ink) (cov : Byte) (len : Nat) (h : len < 2 ^ 24) :
    sheetBody (u8 1 ++ faceBytes ink cov len) = some [declOf ink cov len] := by
  have hd := faceDecls_faceBytes ink cov len [] h
  rw [List.append_nil] at hd
  simp [sheetBody, u8, hd, faceDecls]

theorem sheetBody_two (ink1 ink2 : Ink) (cov1 cov2 : Byte) (len1 len2 : Nat) (h1 : len1 < 2 ^ 24) (h2 : len2 < 2 ^ 24) :
    sheetBody (u8 2 ++ (faceBytes ink1 cov1 len1 ++ faceBytes ink2 cov2 len2)) =
      some [declOf ink1 cov1 len1, declOf ink2 cov2 len2] := by
  have hd := faceDecls_faceBytes ink2 cov2 len2 [] h2
  rw [List.append_nil] at hd
  simp [sheetBody, u8, faceDecls_faceBytes _ _ _ _ h1, hd, faceDecls]

theorem facesOf_one (job ink : Ink) (cov : Byte) (len : Nat) (h : 1 ≤ len) :
    facesOf job [declOf ink cov len] = some (settledPair job ink cov len, none) := by
  simp [facesOf, declOf_face _ _ _ _ h]

theorem facesOf_two (job ink1 ink2 : Ink) (cov1 cov2 : Byte) (len1 len2 : Nat) (h1 : 1 ≤ len1) (h2 : 1 ≤ len2) :
    facesOf job [declOf ink1 cov1 len1, declOf ink2 cov2 len2] =
      some (settledPair job ink1 cov1 len1, some (settledPair job ink2 cov2 len2)) := by
  simp [facesOf, declOf_face _ _ _ _ h1, declOf_face _ _ _ _ h2]

/-- The total of a new sheet is the sum of the lengths declared (R32). -/
theorem newSheet_total_one (job ink : Ink) (cov : Byte) (len : Nat) :
    (newSheet (settledPair job ink cov len) none).total = len := settledFace_length ..

theorem newSheet_total_two (job ink1 ink2 : Ink) (cov1 cov2 : Byte) (len1 len2 : Nat) :
    (newSheet (settledPair job ink1 cov1 len1) (some (settledPair job ink2 cov2 len2))).total = len1 + len2 :=
  congrArg₂ (· + ·) (settledFace_length ..) (settledFace_length ..)

/-- Settles O27: the body reads back as the faces declared, R31 settles them, and the next sheet is open. -/
theorem sheetBeginOpensNextSheet : Obligations.SheetBeginOpensNextSheet := by
  intro tag h j ink1 ink2 cov1 cov2 len1 len2 two s ht hj hc h1 h1' h2 h2' hd hn ho settled changed shown sp back
  have hback : s.nextStart h.slot j = back := by
    simp only [State.nextStart, back]
    cases j.openSheet.bind (s.smm.sheet? h.slot) with
    | none => rfl
    | some r => rfl
  cases two with
  | false =>
    have he := exec_sheetBegin_accepted tag ht hj (sheetBody_one ink1 cov1 len1 h1') hc (facesOf_one _ _ _ _ h1)
      (by simp) hn
    rw [State.beginSheet_eq _ hj ho, newSheet_total_one, hback] at he
    have hl : h.bytes ++ (u8 1 ++ faceBytes ink1 cov1 len1) = h.bytes ++ u8 (if false = true then 2 else 1) ++
        u8 ink1.code ++ [cov1] ++ u24 len1 ++ if false = true then u8 ink2.code ++ [cov2] ++ u24 len2 else [] := by
      simp [faceBytes]
    have hr : list8 faceReply [settledPair j.ink ink1 cov1 len1] = u8 1 ++ shown ink1 cov1 len1 ++ [] := by
      rw [list8, List.flatMap_singleton, List.append_nil]; rfl
    rw [← hl, he, Option.toList_none, hr]
    simp only [List.append_assoc]
    rfl
  | true =>
    have he := exec_sheetBegin_accepted tag ht hj (sheetBody_two ink1 ink2 cov1 cov2 len1 len2 h1' h2') hc
      (facesOf_two _ _ _ _ _ _ _ h1 h2) (fun _ => hd rfl) hn
    rw [State.beginSheet_eq _ hj ho, newSheet_total_two, hback] at he
    have hl : h.bytes ++ (u8 2 ++ (faceBytes ink1 cov1 len1 ++ faceBytes ink2 cov2 len2)) =
        h.bytes ++ u8 (if true = true then 2 else 1) ++ u8 ink1.code ++ [cov1] ++ u24 len1 ++
          if true = true then u8 ink2.code ++ [cov2] ++ u24 len2 else [] := by
      simp [faceBytes]
    have hr : list8 faceReply [settledPair j.ink ink1 cov1 len1, settledPair j.ink ink2 cov2 len2] =
        u8 2 ++ shown ink1 cov1 len1 ++ shown ink2 cov2 len2 := by
      rw [list8, List.flatMap_cons, List.flatMap_singleton, ← List.append_assoc]; rfl
    rw [← hl, he, Option.toList_some, hr]
    simp only [List.append_assoc]
    rfl

end Sys2Proof.Machine
end

section
/-! FACE_DATA (R27, R34 to R37): the bytes of a chunk land one after another along the chain. Taking the one extent that a
chunk may need before its first byte gives the same spool as taking it when the chain ends, so a chunk is a reservation and
then writes to addresses that are known beforehand. -/

namespace Sys2Proof.Machine

/-! ### Write positions as numbers of bytes -/

/-- The write position that stands behind `x` bytes of a chain. -/
def WritePos.behind (x : Nat) : WritePos := ⟨x / 65536, x % 65536⟩

theorem WritePos.advance_behind (x : Nat) : (WritePos.behind x).advance = .behind (x + 1) := by
  unfold WritePos.advance WritePos.behind Config.extentBytes
  dsimp only
  split <;> simp only [WritePos.mk.injEq] <;> omega

theorem WritePos.eq_behind (w : WritePos) (h : w.off < 65536) : w = .behind (w.pos * 65536 + w.off) := by
  obtain ⟨pos, off⟩ := w
  simp only [WritePos.behind, WritePos.mk.injEq] at h ⊢
  omega

/-- The spool address of byte `x` of a chain (R24, R27). -/
def chainAddress (chain : List Nat) (x : Nat) : Nat := chain.getD (x / 65536) 0 * 65536 + x % 65536

/-- Two bytes that a chain of distinct extents reaches lie at different addresses. -/
theorem chainAddress_inj {chain : List Nat} {x y : Nat} (hc : chain.Nodup) (hx : x < chain.length * 65536)
    (hy : y < chain.length * 65536) (h : chainAddress chain x = chainAddress chain y) : x = y := by
  have hx' : x / 65536 < chain.length := by omega
  have hy' : y / 65536 < chain.length := by omega
  unfold chainAddress at h
  rw [List.getD_eq_getElem _ _ hx', List.getD_eq_getElem _ _ hy'] at h
  have he : chain[x / 65536] = chain[y / 65536] := by omega
  have := (hc.getElem_inj_iff).1 he
  omega

/-! ### Bytes written along a chain -/

/-- The memory after bytes are written from byte `x` of a chain on. -/
def writeAlong (chain : List Nat) : Memory → Nat → List Byte → Memory
  | m, _, [] => m
  | m, x, b :: l => writeAlong chain (Memory.write Config.unwrittenByte m (chainAddress chain x) b) (x + 1) l

/-- A byte at none of their addresses reads as before. -/
theorem writeAlong_other (chain : List Nat) (l : List Byte) (m : Memory) (x a : Nat)
    (h : ∀ k, k < l.length → a ≠ chainAddress chain (x + k)) :
    Memory.read Config.unwrittenByte (writeAlong chain m x l) a = Memory.read Config.unwrittenByte m a := by
  induction l generalizing m x with
  | nil => rfl
  | cons b l ih =>
    have hrest : ∀ k, k < l.length → a ≠ chainAddress chain (x + 1 + k) := fun k hk => by
      have := h (k + 1) (by simpa using hk)
      rwa [show x + (k + 1) = x + 1 + k by omega] at this
    rw [writeAlong, ih _ _ hrest]
    exact Memory.read_write_other _ _ _ _ _ (h 0 (by simp))

/-- Each byte reads back at its own address, which no later one shares. -/
theorem writeAlong_at {chain : List Nat} (hc : chain.Nodup) (l : List Byte) (m : Memory) (x k : Nat)
    (hm : Memory.wf Config.unwrittenByte m = true) (hx : x + l.length ≤ chain.length * 65536) (hk : k < l.length) :
    some (Memory.read Config.unwrittenByte (writeAlong chain m x l) (chainAddress chain (x + k))) = l[k]? := by
  induction l generalizing m x k with
  | nil => simp at hk
  | cons b l ih =>
    simp only [List.length_cons] at hx hk
    rw [writeAlong]
    cases k with
    | zero =>
      rw [writeAlong_other, Nat.add_zero, Memory.read_write_same _ _ _ _ hm]
      · rfl
      · intro k hk h
        have := chainAddress_inj hc (by omega) (by omega) h
        omega
    | succ k =>
      rw [show x + (k + 1) = x + 1 + k by omega]
      exact ih _ _ _ (Memory.write_wf _ _ _ _ hm) (by omega) (by omega)

/-! ### One byte, and the bytes of a chunk (R27) -/

section
variable (h : Handle) (m : Smm)

/-- What one slot keeps, replaced. -/
def Smm.withSlot (i : Fin 64) (sp : SlotSpool) (m : Smm) : Smm := { m with slots := m.slots.set i sp }

theorem Smm.withSlot_same (i : Fin 64) (sp : SlotSpool) : (m.withSlot i sp).slots[i] = sp := by simp [Smm.withSlot]

theorem Smm.withSlot_other (i k : Fin 64) (sp : SlotSpool) (hk : k ≠ i) :
    (m.withSlot i sp).slots[k] = m.slots[k] := by
  have : i.val ≠ k.val := fun e => hk (Fin.ext e.symm)
  simp [Smm.withSlot, this]

theorem Smm.withSlot_self (i : Fin 64) : m.withSlot i m.slots[i] = m := by simp [Smm.withSlot]

/-- A byte stored where the chain reaches the write position. -/
theorem Smm.storeByte_eq (b : Byte) {sp : SlotSpool} (hs : m.slots[h.slot] = sp) (hr : sp.reachesWrite = true) :
    m.storeByte h b =
      { m with mem := Memory.write Config.unwrittenByte m.mem (sp.addressAt sp.wpos) b }.withSlot h.slot
        { sp with wpos := sp.wpos.advance } := by
  subst hs
  rw [Smm.storeByte, Smm.ensure, if_pos hr, Smm.withSlot]

/-- Bytes stored where the chain reaches all of them: the memory, and the write position behind them. -/
theorem Smm.storeBytes_eq (l : List Byte) {sp : SlotSpool} (x : Nat) (hs : m.slots[h.slot] = sp)
    (hw : sp.wpos = .behind x) (hx : x + l.length ≤ sp.chain.length * 65536) :
    l.foldl (Smm.storeByte h) m =
      { m with mem := writeAlong sp.chain m.mem x l }.withSlot h.slot { sp with wpos := .behind (x + l.length) } := by
  induction l generalizing m sp x with
  | nil =>
    have e : { sp with wpos := .behind (x + 0) } = m.slots[h.slot] := by rw [hs, Nat.add_zero, ← hw]
    rw [List.foldl_nil, writeAlong, List.length_nil, e]
    exact (m.withSlot_self h.slot).symm
  | cons b l ih =>
    simp only [List.length_cons] at hx ⊢
    have hr : sp.reachesWrite = true := by
      simp only [SlotSpool.reachesWrite, hw, WritePos.behind, decide_eq_true_eq]
      omega
    have ha : sp.addressAt sp.wpos = chainAddress sp.chain x := by rw [hw]; rfl
    rw [List.foldl_cons, Smm.storeByte_eq h m b hs hr,
      ih _ (x + 1) (Smm.withSlot_same ..) (by rw [hw, WritePos.advance_behind]) (by dsimp only; omega), ha,
      show x + (l.length + 1) = x + 1 + l.length by omega]
    simp only [Smm.withSlot, Vector.set_set, writeAlong]

/-- An allocation with an extent free. -/
theorem Smm.allocate_eq {e : Nat} {rest : List Nat} {sp : SlotSpool} (hs : m.slots[h.slot] = sp)
    (hf : m.free = e :: rest) :
    m.allocate h =
      ({ m with free := rest, owners := m.owners ++ [(e, ⟨h, sp.chain.length⟩)] } : Smm).withSlot h.slot
        { sp with chain := sp.chain ++ [e] } := by
  subst hs
  simp only [Smm.allocate, hf, Smm.withSlot]

/-- Storing a byte that the chain reaches and allocating do not disturb each other. -/
theorem Smm.storeByte_allocate (b : Byte) {sp : SlotSpool} (hs : m.slots[h.slot] = sp) (hr : sp.reachesWrite = true) :
    (m.allocate h).storeByte h b = (m.storeByte h b).allocate h := by
  have hb := Smm.storeByte_eq h m b hs hr
  have hs' : (m.storeByte h b).slots[h.slot] = { sp with wpos := sp.wpos.advance } := by rw [hb, Smm.withSlot_same]
  have hm' : (m.storeByte h b).free = m.free := by rw [hb]; rfl
  cases hf : m.free with
  | nil => simp only [Smm.allocate, hm', hf]
  | cons e rest =>
    have hp : sp.wpos.pos < sp.chain.length := of_decide_eq_true hr
    have hr' : SlotSpool.reachesWrite { sp with chain := sp.chain ++ [e] } = true := by
      simp only [SlotSpool.reachesWrite, List.length_append, List.length_singleton, decide_eq_true_eq]
      omega
    have he : (sp.chain ++ [e]).getD sp.wpos.pos 0 = sp.chain.getD sp.wpos.pos 0 := List.getD_append _ _ _ _ hp
    rw [Smm.allocate_eq h m hs hf, Smm.storeByte_eq h _ b (Smm.withSlot_same ..) hr',
      Smm.allocate_eq h _ hs' (hm'.trans hf), hb]
    simp only [Smm.withSlot, Vector.set_set, SlotSpool.addressAt, SlotSpool.extentAt, he]

/-- An allocation at the end of a chain lets the chain reach the write position there. -/
theorem Smm.allocate_reaches (hf : m.free ≠ []) (hp : m.slots[h.slot].wpos.pos ≤ m.slots[h.slot].chain.length) :
    (m.allocate h).slots[h.slot].reachesWrite = true := by
  obtain ⟨e, rest, hf⟩ := List.exists_cons_of_ne_nil hf
  rw [Smm.allocate_eq h m rfl hf, Smm.withSlot_same]
  simp only [SlotSpool.reachesWrite, List.length_append, List.length_singleton, decide_eq_true_eq]
  omega

/-- An extent that a list of bytes will need may be taken before the first of them. -/
theorem Smm.storeBytes_allocate (l : List Byte) {sp : SlotSpool} (x : Nat) (hs : m.slots[h.slot] = sp)
    (hw : sp.wpos = .behind x) (hx : x ≤ sp.chain.length * 65536) (hn : sp.chain.length * 65536 < x + l.length)
    (hf : m.free ≠ []) : l.foldl (Smm.storeByte h) m = l.foldl (Smm.storeByte h) (m.allocate h) := by
  induction l generalizing m sp x with
  | nil => simp only [List.length_nil] at hn; omega
  | cons b l ih =>
    simp only [List.length_cons] at hn
    by_cases hr : sp.reachesWrite = true
    · have hlt : x / 65536 < sp.chain.length := by
        simpa [SlotSpool.reachesWrite, hw, WritePos.behind] using hr
      have hb := Smm.storeByte_eq h m b hs hr
      rw [List.foldl_cons, List.foldl_cons, Smm.storeByte_allocate h m b hs hr]
      exact ih (m.storeByte h b) (x + 1) (by rw [hb, Smm.withSlot_same]) (by rw [hw, WritePos.advance_behind])
        (by dsimp only; omega) (by dsimp only; omega) (by rw [hb]; exact hf)
    · have hpos : m.slots[h.slot].wpos.pos ≤ m.slots[h.slot].chain.length := by
        rw [hs, hw]
        simp only [WritePos.behind]
        omega
      have he : m.ensure h = (m.allocate h).ensure h := by
        rw [Smm.ensure, if_neg (hs ▸ hr), Smm.ensure, if_pos (Smm.allocate_reaches h m hf hpos)]
      have hb : m.storeByte h b = (m.allocate h).storeByte h b := by rw [Smm.storeByte, Smm.storeByte, he]
      rw [List.foldl_cons, List.foldl_cons, hb]

/-! ### A whole chunk (R34, R35) -/

/-- The extents that storing `n` bytes takes: the head of the free list where the chain does not reach (R27). -/
def Smm.taken (n : Nat) : List Nat := if m.slots[h.slot].needsExtent n then m.free.take 1 else []

/-- The spool with those extents in the job's chain. -/
def Smm.reserve (n : Nat) : Smm := if m.slots[h.slot].needsExtent n then m.allocate h else m

theorem Smm.reserve_eq (n : Nat) : m.reserve h n =
    ({ m with
      free := m.free.drop (m.taken h n).length
      owners := m.owners ++ (m.taken h n).map fun e => (e, ⟨h, m.slots[h.slot].chain.length⟩) } : Smm).withSlot h.slot
        { m.slots[h.slot] with chain := m.slots[h.slot].chain ++ m.taken h n } := by
  have unchanged : ({ m with free := m.free, owners := m.owners ++ [] } : Smm).withSlot h.slot
      { m.slots[h.slot] with chain := m.slots[h.slot].chain ++ [] } = m := by
    rw [List.append_nil, List.append_nil]
    exact m.withSlot_self h.slot
  unfold Smm.reserve Smm.taken
  split
  · cases hf : m.free with
    | nil =>
      rw [hf] at unchanged
      simp only [Smm.allocate, hf]
      exact unchanged.symm
    | cons e rest => rw [Smm.allocate_eq h m rfl hf]; rfl
  · exact unchanged.symm

theorem Smm.reserve_keeps (n : Nat) : m.Keeps (m.reserve h n) := by
  unfold Smm.reserve
  split
  · exact m.allocate_keeps h
  · exact .refl m

/-- The number of bytes of the chain before a slot's write position. -/
def SlotSpool.written (sp : SlotSpool) : Nat := sp.wpos.pos * 65536 + sp.wpos.off

/-- A chunk of `n` bytes may be stored: the write position lies within the chain or at the first byte behind it (R27), and
an extent is free where one is needed (R34 check 6). -/
structure Smm.HasRoom (n : Nat) : Prop where
  nonempty : 1 ≤ n
  atMost : n ≤ 2044
  off : m.slots[h.slot].wpos.off < 65536
  pos : m.slots[h.slot].wpos.pos < m.slots[h.slot].chain.length ∨
    m.slots[h.slot].wpos.pos = m.slots[h.slot].chain.length ∧ m.slots[h.slot].wpos.off = 0
  free : m.slots[h.slot].needsExtent n = true → m.free ≠ []

variable {h m}

theorem SlotSpool.needsExtent_iff (sp : SlotSpool) {n : Nat} (hn : 1 ≤ n) :
    sp.needsExtent n = true ↔ sp.chain.length * 65536 < sp.written + n := by
  unfold SlotSpool.needsExtent SlotSpool.written Config.extentBytes
  rw [decide_eq_true_iff]
  omega

/-- One extent is enough for a chunk. -/
theorem Smm.HasRoom.fits {n : Nat} (hr : m.HasRoom h n) :
    m.slots[h.slot].written + n ≤ (m.slots[h.slot].chain ++ m.taken h n).length * 65536 := by
  obtain ⟨h1, h2, hoff, hpos, hfree⟩ := hr
  have hn := m.slots[h.slot].needsExtent_iff h1
  unfold Smm.taken
  split
  · next hneed =>
    obtain ⟨e, rest, hf⟩ := List.exists_cons_of_ne_nil (hfree hneed)
    rw [hf]
    simp only [List.length_append, List.take_succ_cons, List.take_zero, List.length_singleton, SlotSpool.written]
    omega
  · next hneed =>
    rw [hn] at hneed
    rw [List.append_nil]
    omega

/-- Where the chain does not reach the write position, the reservation is the allocation of the first byte. -/
theorem Smm.HasRoom.ensure_of_not_reaches {n : Nat} (hr : m.HasRoom h n)
    (hw : ¬ m.slots[h.slot].reachesWrite = true) : m.ensure h = m.reserve h n := by
  have hneed : m.slots[h.slot].needsExtent n = true := by
    rw [SlotSpool.needsExtent_iff _ hr.nonempty]
    have h1 := hr.nonempty
    have hpos := hr.pos
    simp only [SlotSpool.reachesWrite, decide_eq_true_eq] at hw
    simp only [SlotSpool.written]
    omega
  rw [Smm.ensure, if_neg hw, Smm.reserve, if_pos hneed]

/-- Storing a chunk after its reservation gives the same spool. -/
theorem Smm.HasRoom.storeBytes {chunk : List Byte} (hr : m.HasRoom h chunk.length) :
    chunk.foldl (Smm.storeByte h) (m.ensure h) = chunk.foldl (Smm.storeByte h) (m.reserve h chunk.length) := by
  by_cases hw : m.slots[h.slot].reachesWrite = true
  · rw [Smm.ensure, if_pos hw, Smm.reserve]
    split
    · next hneed =>
      have hx := (SlotSpool.needsExtent_iff _ hr.nonempty).1 hneed
      have hpos := hr.pos
      have hoff := hr.off
      exact Smm.storeBytes_allocate h m chunk _ rfl (WritePos.eq_behind _ hr.off)
        (by omega) hx (hr.free hneed)
    · rfl
  · rw [hr.ensure_of_not_reaches hw]

/-- The start position of a sheet is found by the chain as the chunk leaves it (R29). -/
theorem Smm.HasRoom.startHere {n : Nat} (hr : m.HasRoom h n) :
    (m.ensure h).slots[h.slot].startHere =
      ⟨(m.slots[h.slot].chain ++ m.taken h n).getD m.slots[h.slot].wpos.pos 0, m.slots[h.slot].wpos.off⟩ := by
  by_cases hw : m.slots[h.slot].reachesWrite = true
  · rw [Smm.ensure, if_pos hw, List.getD_append _ _ _ _ (of_decide_eq_true hw)]
    rfl
  · rw [hr.ensure_of_not_reaches hw, Smm.reserve_eq, Smm.withSlot_same]
    rfl

/-- The record of an open sheet after a chunk of `n` bytes (R35). -/
def SheetRecord.grown (n : Nat) (start : StartPos) (r : SheetRecord) : SheetRecord :=
  { r with received := r.received + n, start := if r.received = 0 then some start else r.start }

/-- The spool after a chunk: the extent taken if one was needed, the bytes along the chain, the write position behind them,
and the record of the open sheet. -/
theorem Smm.HasRoom.storeChunk {chunk : List Byte} (hr : m.HasRoom h chunk.length) (n : Nat) :
    let sp := m.slots[h.slot]
    let chain := sp.chain ++ m.taken h chunk.length
    m.storeChunk h n chunk =
      ({ m.reserve h chunk.length with mem := writeAlong chain m.mem sp.written chunk } : Smm).withSlot h.slot
        { chain, wpos := .behind (sp.written + chunk.length)
          sheets := sp.sheets.modify (n - 1) (.grown chunk.length ⟨chain.getD sp.wpos.pos 0, sp.wpos.off⟩) } := by
  intro sp chain
  have hs : (m.reserve h chunk.length).slots[h.slot] = { sp with chain } := by
    rw [Smm.reserve_eq, Smm.withSlot_same]
  have hm : (m.reserve h chunk.length).mem = m.mem := by rw [Smm.reserve_eq]; rfl
  have hb := Smm.storeBytes_eq h (m.reserve h chunk.length) chunk _ hs (WritePos.eq_behind _ hr.off) hr.fits
  rw [hm] at hb
  unfold Smm.storeChunk
  dsimp only
  rw [hr.storeBytes, hb, hr.startHere]
  simp only [Smm.mapSheet, Smm.mapSlot, Smm.withSlot_same]
  simp only [Smm.withSlot, Vector.set_set]
  rfl

end

end Sys2Proof.Machine
end

section
/-! FACE_DATA as a request (R34 to R37): its body read back, the state it leaves, and the statement about it. -/

namespace Sys2Proof.Machine

section
variable {s : State} {h : Handle} {j : Job} {n : Nat} {r : SheetRecord} {chunk : List Byte}

/-- A chunk reads back from its count and bytes (R34). -/
theorem chunkBody_bytes (h1 : 1 ≤ chunk.length) (h2 : chunk.length ≤ 2044) :
    chunkBody (u16 chunk.length ++ chunk) = some chunk := by
  have hb : be16 (BitVec.ofNat 8 (chunk.length / 256)) (BitVec.ofNat 8 chunk.length) = chunk.length :=
    be16_u16 _ (by omega)
  simp [u16, chunkBody, hb, h1, Config.maxChunk, h2]

/-- A FACE_DATA that passes its checks (R34) is answered with the sheet's progress. -/
theorem exec_faceData_accepted (tag : Byte) (ht : s.takes = true) (hj : s.jobOf h = some j) (hc : j.closed = false)
    (ho : j.openSheet = some n) (hr : s.smm.sheet? h.slot n = some r) (hroom : s.smm.HasRoom h chunk.length)
    (htot : r.received + chunk.length ≤ r.total) :
    exec (.faceData tag (h.bytes ++ (u16 chunk.length ++ chunk))) s =
      .next (State.reply 0x12 tag .ok
        (sheetProgress n { r with received := r.received + chunk.length } ++
          flag (decide (r.received + chunk.length = r.total)))
        (s.storeFaceData h n j r chunk)) := by
  have hfree : ¬ (s.smm.slots[h.slot].needsExtent chunk.length && s.smm.free.isEmpty) = true := by
    rw [Bool.and_eq_true, List.isEmpty_iff]
    exact fun ⟨hneed, hempty⟩ => hroom.free hneed hempty
  have hb := chunkBody_bytes hroom.nonempty hroom.atMost
  show Host.Outcome.next (takeRequest 0x12 tag false (longHandleRequest faceData (h.bytes ++ _)) s) = _
  rw [takeRequest_taken _ _ _ _ _ ht, longHandleRequest_bytes _ _ _ hj]
  simp only [faceData, hb, hc, ho, Option.bind_some, hr, Option.map_some, if_neg hfree, if_neg (Nat.not_lt.2 htot),
    Bool.false_eq_true, if_false]
  rfl

/-! ### The state after a chunk -/

theorem State.reply_smm (typ tag : Byte) (st : Status) (body : List Byte) (s : State) :
    (s.reply typ tag st body).smm = s.smm := rfl

/-- The record of the open sheet after a chunk that may complete it (R35, R37). -/
def SheetRecord.after (len : Nat) (start : StartPos) (r : SheetRecord) : SheetRecord :=
  { r with
    received := r.received + len
    complete := if r.received + len = r.total then true else r.complete
    start := if r.received = 0 then some start else r.start }

/-- The spool after a chunk is stored that may complete its sheet: the extent taken if one was needed, the bytes along the
chain, the write position behind them, and the record of the open sheet. -/
def Smm.afterChunk (h : Handle) (n : Nat) (r : SheetRecord) (chunk : List Byte) (m : Smm) : Smm :=
  let sp := m.slots[h.slot]
  let chain := sp.chain ++ m.taken h chunk.length
  ({ m.reserve h chunk.length with mem := writeAlong chain m.mem sp.written chunk } : Smm).withSlot h.slot
    { chain, wpos := .behind (sp.written + chunk.length)
      sheets := sp.sheets.set (n - 1) (r.after chunk.length ⟨chain.getD sp.wpos.pos 0, sp.wpos.off⟩) }

section
variable (m : Smm)

theorem Smm.afterChunk_slot : (m.afterChunk h n r chunk).slots[h.slot] =
    { chain := m.slots[h.slot].chain ++ m.taken h chunk.length
      wpos := .behind (m.slots[h.slot].written + chunk.length)
      sheets := m.slots[h.slot].sheets.set (n - 1) (r.after chunk.length
        ⟨(m.slots[h.slot].chain ++ m.taken h chunk.length).getD m.slots[h.slot].wpos.pos 0,
          m.slots[h.slot].wpos.off⟩) } := Smm.withSlot_same ..

theorem Smm.afterChunk_free : (m.afterChunk h n r chunk).free = m.free.drop (m.taken h chunk.length).length := by
  rw [Smm.afterChunk, Smm.reserve_eq]; rfl

theorem Smm.afterChunk_size : (m.afterChunk h n r chunk).size = m.size := by
  rw [Smm.afterChunk, Smm.reserve_eq]; rfl

theorem Smm.afterChunk_owners : (m.afterChunk h n r chunk).owners =
    m.owners ++ (m.taken h chunk.length).map fun e => (e, ⟨h, m.slots[h.slot].chain.length⟩) := by
  rw [Smm.afterChunk, Smm.reserve_eq]; rfl

theorem Smm.afterChunk_other (i : Fin 64) (hi : i ≠ h.slot) : (m.afterChunk h n r chunk).slots[i] = m.slots[i] := by
  rw [Smm.afterChunk, Smm.withSlot_other _ _ _ _ hi, Smm.reserve_eq]
  exact Smm.withSlot_other _ _ _ _ hi

theorem Smm.afterChunk_mem : (m.afterChunk h n r chunk).mem =
    writeAlong (m.slots[h.slot].chain ++ m.taken h chunk.length) m.mem m.slots[h.slot].written chunk := rfl

end

theorem modify_eq_set {α : Type} {l : List α} {i : Nat} {x : α} (f : α → α) (hx : l[i]? = some x) :
    l.modify i f = l.set i (f x) := by
  rw [List.modify_eq_set_getElem?, hx]
  rfl

theorem Smm.withSlot_mapSheet (m : Smm) (i : Fin 64) (sp : SlotSpool) (n : Nat) (f : SheetRecord → SheetRecord) :
    (m.withSlot i sp).mapSheet i n f = m.withSlot i { sp with sheets := sp.sheets.modify (n - 1) f } := by
  simp only [Smm.mapSheet, Smm.mapSlot, Smm.withSlot_same]
  simp only [Smm.withSlot, Vector.set_set]

/-- A completed sheet's record is the one change of the spool (R37): the opportunity that follows only reads it. -/
theorem State.completeSheet_smm (i : Fin 64) (n : Nat) (j : Job) (s : State) :
    (s.completeSheet i n j).smm = s.smm.mapSheet i n fun r => { r with complete := true } := by
  unfold State.completeSheet
  dsimp only
  split
  · exact congrArg Stored.smm (State.opportunity_stored _ _)
  · rfl

theorem State.storeFaceData_smm (j : Job) (hroom : s.smm.HasRoom h chunk.length)
    (hr : s.smm.sheet? h.slot n = some r) :
    (s.storeFaceData h n j r chunk).smm = s.smm.afterChunk h n r chunk := by
  have hlt : n - 1 < s.smm.slots[h.slot].sheets.length := (List.getElem?_eq_some_iff.1 hr).1
  have hs := hroom.storeChunk n
  dsimp only at hs
  rw [modify_eq_set _ hr] at hs
  unfold State.storeFaceData
  split
  · next hgot =>
    rw [State.completeSheet_smm, State.mapSmm_smm, hs, Smm.withSlot_mapSheet]
    dsimp only
    rw [modify_eq_set _ (List.getElem?_set_self hlt), List.set_set]
    simp only [Smm.afterChunk, SheetRecord.after, SheetRecord.grown, if_pos hgot]
  · next hgot =>
    rw [State.mapSmm_smm, hs]
    simp only [Smm.afterChunk, SheetRecord.after, SheetRecord.grown, if_neg hgot]

/-- Where no press gets an opportunity, spool and job table change and nothing else. -/
theorem State.storeFaceData_quiet (hj : s.jobOf h = some j)
    (hq : j.state ≠ .active ∨ r.received + chunk.length ≠ r.total) :
    s.storeFaceData h n j r chunk = { s with
      jobs := s.jobs.set h.slot ⟨h.gen, some
        (if r.received + chunk.length = r.total then { j with sheets := j.sheets + 1, openSheet := none } else j)⟩
      smm := (s.storeFaceData h n j r chunk).smm } := by
  have hs := State.jobOf_slot hj
  by_cases hgot : r.received + chunk.length = r.total
  · have hstate : j.state ≠ .active := hq.resolve_right (not_not.2 hgot)
    have hc (u : State) : u.completeSheet h.slot n j =
        (u.mapSmm (Smm.mapSheet h.slot n fun r => { r with complete := true })).mapJob h.slot fun j =>
          { j with sheets := j.sheets + 1, openSheet := none } := by
      unfold State.completeSheet
      dsimp only
      split
      · contradiction
      · rfl
    simp only [State.storeFaceData, if_pos hgot, hc]
    simp only [State.mapJob, State.mapSlot, State.mapSmm_jobs, hs, Option.map_some]
    rfl
  · have hsame : s.jobs.set h.slot ⟨h.gen, some j⟩ = s.jobs := by rw [← hs]; simp
    simp only [State.storeFaceData, if_neg hgot, hsame]
    rfl

end

/-- Settles O28: a chunk takes the extent it may need, and its bytes lie at the addresses of the chain from then on, each at
its own, since the extents of a chain are distinct (R25). -/
theorem faceDataStoresAtWritePosition : Obligations.FaceDataStoresAtWritePosition := by
  intro tag h j n r chunk s ht hext hmem hj hc ho hn1 hr h1 h2 htot hoff hpos sp first needs hfree
  have hneeds : sp.needsExtent chunk.length = true ↔ needs := decide_eq_true_iff
  have hroom : s.smm.HasRoom h chunk.length := ⟨h1, h2, hoff, hpos, fun hneed => hfree (hneeds.1 hneed)⟩
  have hsmm := State.storeFaceData_smm j hroom hr
  have htake : needs → s.smm.taken h chunk.length = s.smm.free.take 1 := fun hn => if_pos (hneeds.2 hn)
  have hkeep : ¬ needs → s.smm.taken h chunk.length = [] := fun hn => if_neg (mt hneeds.1 hn)
  have hlt : n - 1 < sp.sheets.length := (List.getElem?_eq_some_iff.1 hr).1
  have hnodup : (sp.chain ++ s.smm.taken h chunk.length).Nodup := by
    have := ((s.smm.reserve_keeps h chunk.length).extents hext).chain_nodup h.slot
    rwa [Smm.reserve_eq, Smm.withSlot_same] at this
  refine ⟨_, sp.chain ++ s.smm.taken h chunk.length,
    (congrArg (fun l => exec (.faceData tag l) s) (List.append_assoc ..)).trans
      (exec_faceData_accepted tag ht hj hc ho hr hroom htot), ?_⟩
  rw [State.reply_smm, hsmm]
  refine ⟨fun hn => ⟨by rw [htake hn], ?_⟩, fun hn => ⟨by rw [hkeep hn, List.append_nil], ?_⟩,
    by rw [Smm.afterChunk_slot], by rw [Smm.afterChunk_slot]; rfl, s.smm.afterChunk_other, s.smm.afterChunk_size, ?_,
    by rw [Smm.afterChunk_slot, List.length_set], fun m hm hmn => ?_, ⟨fun k hk => ?_, fun a ha => ?_⟩, ?_,
    fun hq => ?_⟩
  · obtain ⟨e, rest, hf⟩ := List.exists_cons_of_ne_nil (hfree hn)
    rw [Smm.afterChunk_free, htake hn, hf]
    rfl
  · rw [Smm.afterChunk_free, hkeep hn]
    rfl
  · rw [Smm.afterChunk_owners]
    split
    · next hn => rw [htake hn]
    · next hn => rw [hkeep hn]
  · rw [Smm.sheet?, Smm.afterChunk_slot]
    exact List.getElem?_set_ne (by omega)
  · rw [Smm.afterChunk_mem]
    exact writeAlong_at hnodup chunk s.smm.mem first k hmem.1 hroom.fits hk
  · rw [Smm.afterChunk_mem]
    exact writeAlong_other _ chunk s.smm.mem first a ha
  · rw [Smm.sheet?, Smm.afterChunk_slot]
    exact List.getElem?_set_self hlt
  · rw [← hsmm, State.storeFaceData_quiet hj hq]
    exact ⟨rfl, rfl, rfl⟩

end Sys2Proof.Machine
end

section
/-! The class queues and the choice of a filter (R48 to R52): where an inserted job stands, and each matching test as the
manual words it. -/

namespace Sys2Proof.Machine

/-! ### Insertion by the urgent rule (R52) -/

/-- With no urgent job in the queue an urgent one goes to the head. -/
theorem insertUrgent_none (e : QueueEntry) (l : List QueueEntry) (h : ∀ x ∈ l, x.urgent = false) :
    insertUrgent e l = e :: l := by
  cases l with
  | nil => rfl
  | cons x l => exact if_neg (by simpa using h)

/-- Any entry in front of an urgent one stays in front of the urgent job inserted. -/
theorem insertUrgent_append_cons {e u : QueueEntry} (hu : u.urgent = true) (a b : List QueueEntry) :
    insertUrgent e (a ++ u :: b) = a ++ insertUrgent e (u :: b) := by
  induction a with
  | nil => rfl
  | cons x a ih =>
    have hany : (x :: (a ++ u :: b)).any QueueEntry.urgent = true := by simp [hu]
    rw [List.cons_append, insertUrgent, if_pos hany, ih, List.cons_append]

/-- Directly behind an urgent job that no further urgent one follows. -/
theorem insertUrgent_last {e u : QueueEntry} (hu : u.urgent = true) {b : List QueueEntry}
    (hb : ∀ x ∈ b, x.urgent = false) : insertUrgent e (u :: b) = u :: e :: b := by
  have hany : (u :: b).any QueueEntry.urgent = true := by simp [hu]
  rw [insertUrgent, if_pos hany, insertUrgent_none e b hb]

/-- Settles O25: a job that is not urgent goes to the tail, and an urgent one by `insertUrgent`. -/
theorem urgentJobsPlacedBehindUrgent : Obligations.UrgentJobsPlacedBehindUrgent := by
  intro e u a b
  refine ⟨fun he => ?_, fun he ha => ?_, fun he hu hb => ?_⟩
  · simp [placeEntry, he]
  · simp [placeEntry, he, insertUrgent_none e a ha]
  · simp [placeEntry, he, insertUrgent_append_cons hu, insertUrgent_last hu hb]

/-! ### The four tests (R48, R49) -/

/-- The masked keys agree exactly when every bit compared agrees. -/
theorem Filter.keyTest_iff (f : Filter) (key : Key) :
    f.keyTest key = true ↔
      ∀ b : Fin 32, f.mask.getLsbD b.val = true → key.getLsbD b.val = f.value.getLsbD b.val := by
  rw [Filter.keyTest, decide_eq_true_iff]
  constructor
  · intro h b hm
    have hb : (key &&& f.mask).getLsbD b.val = (f.value &&& f.mask).getLsbD b.val := by rw [h]
    simpa only [BitVec.getLsbD_and, hm, Bool.and_true] using hb
  · intro h
    refine BitVec.eq_of_getLsbD_eq fun i hi => ?_
    cases hm : f.mask.getLsbD i with
    | false => simp [hm]
    | true => simp [hm, h ⟨i, hi⟩ hm]

theorem InkReq.test_iff (q : InkReq) (ink : Ink) :
    q.test ink = true ↔ q = .any ∨ (q = .mono ∧ ink = .mono) ∨ (q = .color ∧ ink = .color) := by
  cases q <;> cases ink <;> simp [InkReq.test]

theorem SidesReq.test_iff (q : SidesReq) (sides : Sides) :
    q.test sides = true ↔ q = .any ∨ (q = .simplex ∧ sides = .simplex) ∨ (q = .duplex ∧ sides = .duplex) := by
  cases q <;> cases sides <;> simp [SidesReq.test]

/-- The label test compares byte by byte, as many bytes as the compare length and the label allow. -/
theorem Filter.labelTest_iff (f : Filter) (label : List Byte) :
    f.labelTest label = true ↔ ∀ n < min f.compare label.length, label[n]? = f.pattern[n]? := by
  rw [Filter.labelTest, decide_eq_true_iff, List.take_eq_take_min, List.ext_getElem?_iff]
  refine forall_congr' fun n => ?_
  rw [List.getElem?_take, List.getElem?_take]
  by_cases hn : n < min f.compare label.length <;> simp [hn]

/-- What R48 to R50 ask of a filter for a job. -/
theorem Filter.matchesJob_iff (f : Filter) (key : Key) (ink : Ink) (sides : Sides) (label : List Byte) :
    f.matchesJob key ink sides label = true ↔
      f.enabled = true ∧ (∀ b : Fin 32, f.mask.getLsbD b.val = true → key.getLsbD b.val = f.value.getLsbD b.val) ∧
        (f.ink = .any ∨ (f.ink = .mono ∧ ink = .mono) ∨ (f.ink = .color ∧ ink = .color)) ∧
        (f.sides = .any ∨ (f.sides = .simplex ∧ sides = .simplex) ∨ (f.sides = .duplex ∧ sides = .duplex)) ∧
        ∀ n < min f.compare label.length, label[n]? = f.pattern[n]? := by
  simp only [Filter.matchesJob, Bool.and_eq_true, f.keyTest_iff, InkReq.test_iff, SidesReq.test_iff, f.labelTest_iff,
    and_assoc]

/-! ### The choice of a filter (R50) -/

/-- The filter routed to is the first that matches. -/
theorem Ru.route_eq_some_iff (r : Ru) (key : Key) (ink : Ink) (sides : Sides) (label : List Byte) (i : Fin 32) :
    r.route key ink sides label = some i ↔
      r.filters[i].matchesJob key ink sides label = true ∧
        ∀ k : Fin 32, k < i → ¬ r.filters[k].matchesJob key ink sides label = true := by
  rw [Ru.route, ← Fin.find?_eq_find?_finRange, Fin.find?_eq_some_iff]
  simp only [Bool.not_eq_true]

theorem Ru.route_eq_none_iff (r : Ru) (key : Key) (ink : Ink) (sides : Sides) (label : List Byte) :
    r.route key ink sides label = none ↔ ∀ i : Fin 32, ¬ r.filters[i].matchesJob key ink sides label = true := by
  simp [Ru.route]

/-- Settles O26: the filter routed to is the first that passes the tests as R48 and R49 word them. -/
theorem lowestMatchingFilterRoutes : Obligations.LowestMatchingFilterRoutes := by
  intro r key ink sides label passes hcompare
  have hpasses (i : Fin 32) : r.filters[i].matchesJob key ink sides label = true ↔ passes i := by
    simp only [passes, Filter.matchesJob_iff, hcompare i, forall_const]
  simp only [Ru.route_eq_some_iff, Ru.route_eq_none_iff, hpasses, implies_true, and_self]

end Sys2Proof.Machine
end

section
/-! The filter and class requests (R45 to R47, R57, R58): each body read back as the fields that a host sends, and the
state and reply of the request that passes its checks. -/

namespace Sys2Proof.Machine

/-! ### Bodies (R211) -/

/-- The bytes of a FILTER_SET body (R45). -/
def filterSetBytes (i : Fin 32) (value mask : Key) (ink : InkReq) (sides : SidesReq) (pattern : List Byte)
    (compare : Byte) (k : Fin 8) : List Byte :=
  u8 i.val ++ u32 value.toNat ++ u32 mask.toNat ++ u8 ink.code ++ u8 sides.code ++ list8 (fun b => [b]) pattern ++
    [compare] ++ u8 k.val

/-- They read back as the fields sent, for a pattern of at most 8 bytes. -/
theorem filterBody_filterSetBytes (i : Fin 32) (value mask : Key) (ink : InkReq) (sides : SidesReq)
    {pattern : List Byte} (compare : Byte) (k : Fin 8) (hp : pattern.length ≤ 8) :
    filterBody (filterSetBytes i value mask ink sides pattern compare k) =
      some { filter := i.val, value, mask, ink := BitVec.ofNat 8 ink.code, sides := BitVec.ofNat 8 sides.code, pattern,
             compare := compare.toNat, cls := k.val } := by
  have hi : (BitVec.ofNat 8 i.val).toNat = i.val := byte_index 32 i (by omega)
  have hk : (BitVec.ofNat 8 k.val).toNat = k.val := byte_index 8 k (by omega)
  have hn : (BitVec.ofNat 8 pattern.length).toNat = pattern.length := by rw [byte_toNat]; omega
  have hs : ¬ 8 < pattern.length := by omega
  simp only [filterSetBytes, u8, u32, u24, u16, list8, List.flatMap_singleton', List.cons_append, List.nil_append,
    List.append_assoc, filterBody, key_u32, hi, hk, hn, if_neg hs, List.take_left, List.drop_left]

/-- The first byte of a body that names a filter. -/
theorem toFin?_filterByte (i : Fin 32) : toFin? 32 (BitVec.ofNat 8 i.val : Byte).toNat = some i := by
  rw [byte_index 32 i (by omega), toFin?_val]

/-- The first byte of a body that names a class. -/
theorem toFin?_classByte (k : Fin 8) : toFin? 8 (BitVec.ofNat 8 k.val : Byte).toNat = some k := by
  rw [byte_index 8 k (by omega), toFin?_val]

/-- The wanted state of a FILTER_ENABLE reads back as it was sent. -/
theorem wanted?_enabledCode (on : Bool) : wanted? (BitVec.ofNat 8 (enabledCode on)) = some on := by
  cases on <;> rfl

/-! ### Filters (R45 to R47) -/

/-- A FILTER_SET of a disabled filter writes it as sent, the compare length clamped, and leaves it disabled (R45). -/
theorem filterSet_bytes {s : State} {i : Fin 32} (value mask : Key) (ink : InkReq) (sides : SidesReq)
    {pattern : List Byte} (compare : Byte) (k : Fin 8) (hoff : s.ru.filters[i].enabled = false)
    (hp : pattern.length ≤ 8) :
    filterSet (filterSetBytes i value mask ink sides pattern compare k) s =
      accept (u8 i.val ++ u8 (min compare.toNat pattern.length) ++ flag (decide (pattern.length < compare.toNat)))
        (s.mapRu (Ru.mapFilter i fun _ =>
          { enabled := false, value, mask, ink, sides, pattern, compare := min compare.toNat pattern.length,
            cls := k })) := by
  simp only [filterSet, filterBody_filterSetBytes i value mask ink sides compare k hp, toFin?_val, hoff, filterWrite,
    inkReq?_code, sidesReq?_code, FilterBody.write, Bool.false_eq_true, if_false]

theorem filterEnable_bytes (s : State) (i : Fin 32) (on : Bool) :
    filterEnable (u8 i.val ++ u8 (enabledCode on)) s =
      accept (u8 (enabledCode s.ru.filters[i].enabled))
        (s.mapRu (Ru.mapFilter i fun x => { x with enabled := on })) := by
  simp only [u8, List.singleton_append, filterEnable, toFin?_filterByte, wanted?_enabledCode]

theorem filterQuery_bytes (s : State) (i : Fin 32) : filterQuery (u8 i.val) s = accept s.ru.filters[i].bytes s := by
  simp only [u8, filterQuery, toFin?_filterByte]

/-- Settles O33: each request is taken, reads its own body back and answers as its rule says. -/
theorem filtersWrittenAndEnabled : Obligations.FiltersWrittenAndEnabled := by
  intro tag i s ht
  refine ⟨fun value mask ink sides pattern compare k hoff hp => ?_, fun on => ?_, ?_⟩
  · change Host.Outcome.next (takeRequest 0x20 tag false
      (filterSet (filterSetBytes i value mask ink sides pattern compare k)) s) = _
    rw [takeRequest_taken _ _ _ _ _ ht, filterSet_bytes value mask ink sides compare k hoff hp]
    rfl
  · change Host.Outcome.next (takeRequest 0x21 tag false (filterEnable (u8 i.val ++ u8 (enabledCode on))) s) = _
    rw [takeRequest_taken _ _ _ _ _ ht, filterEnable_bytes]
    rfl
  · change Host.Outcome.next (takeRequest 0x22 tag false (filterQuery (u8 i.val)) s) = _
    rw [takeRequest_taken _ _ _ _ _ ht, filterQuery_bytes]
    rfl

/-! ### Classes (R56 to R58) -/

/-- The flags of a queue by its count and its capacity (R56). -/
theorem ClassQueue.flagsByte_eq (q : ClassQueue) :
    q.flagsByte = u8 ((if 1 ≤ q.entries.length then 1 else 0) +
      (if (q.capacity + 1) / 2 ≤ q.entries.length then 2 else 0) + if q.entries.length = q.capacity then 4 else 0) := by
  simp only [ClassQueue.flagsByte, ClassQueue.notEmpty, ClassQueue.half, ClassQueue.full, decide_eq_true_eq]

/-- A CLASS_SET of a capacity of 1 to 64, not below the count, sets it (R57). -/
theorem classSet_bytes {s : State} {k : Fin 8} {n : Nat} (h1 : 1 ≤ n) (h64 : n ≤ 64)
    (hc : s.ru.queues[k].entries.length ≤ n) :
    classSet (u8 k.val ++ u8 n) s =
      accept (ClassQueue.figures { s.ru.queues[k] with capacity := n }) (s.mapRu (Ru.setCapacity k n)) := by
  have hn : (BitVec.ofNat 8 n : Byte).toNat = n := by rw [byte_toNat]; omega
  have hrange : ¬ (n = 0 ∨ 64 < n) := by omega
  have hcount : ¬ n < s.ru.queues[k].entries.length := by omega
  simp only [u8, List.singleton_append, classSet, toFin?_classByte, hn, classWrite, if_neg hrange, if_neg hcount]

theorem classQuery_bytes (s : State) (k : Fin 8) :
    classQuery (u8 k.val) s =
      accept (s.ru.queues[k].figures ++ list8 s.queueEntryBytes s.ru.queues[k].entries) s := by
  simp only [u8, classQuery, toFin?_classByte]

/-- Settles O34: both requests are taken and answer with the figures of the queue, its flags being those of R56. -/
theorem classesSizedAndReported : Obligations.ClassesSizedAndReported := by
  intro tag k s ht flags
  have hfigures (q : ClassQueue) :
      q.figures = u8 q.capacity ++ u8 q.entries.length ++ flags q.entries.length q.capacity := by
    rw [ClassQueue.figures, q.flagsByte_eq]
  refine ⟨fun n h1 h64 hc => ?_, ?_⟩
  · change Host.Outcome.next (takeRequest 0x23 tag false (classSet (u8 k.val ++ u8 n)) s) = _
    rw [takeRequest_taken _ _ _ _ _ ht, classSet_bytes h1 h64 hc, hfigures]
    rfl
  · change Host.Outcome.next (takeRequest 0x24 tag false (classQuery (u8 k.val)) s) = _
    rw [takeRequest_taken _ _ _ _ _ ht, classQuery_bytes, hfigures]
    rfl

end Sys2Proof.Machine
end

section
/-! Binding and unbinding (R55, R88 to R90, R105): what a dispatch opportunity may change, what a press that binds a job
leaves, which job a press is given, and the two events that follow from it. -/

namespace Sys2Proof.Machine

/-! ### Jobs in their slots, presses in their places -/

/-- An update of one element of a table leaves every other. -/
theorem getElem_set_other {α : Type} {n : Nat} (v : Vector α n) {i k : Fin n} (h : k ≠ i) (x : α) :
    (v.set i x)[k] = v[k] := Vector.getElem_set_ne _ _ fun e => h (Fin.ext e).symm

theorem getElem_set_same {α : Type} {n : Nat} (v : Vector α n) (i : Fin n) (x : α) : (v.set i x)[i] = x :=
  Vector.getElem_set_self _

theorem State.mapPress_self (s : State) (p : Fin 16) (f : Press → Press) :
    (s.mapPress p f).presses[p] = f s.presses[p] := by rw [State.mapPress_get, if_pos rfl]

theorem State.mapPress_other (s : State) {p q : Fin 16} (h : q ≠ p) (f : Press → Press) :
    (s.mapPress p f).presses[q] = s.presses[q] := getElem_set_other _ h _

/-- A handle names the job that its slot holds under its generation, whatever the record. -/
theorem State.jobOf_of_slot {s t : State} {h : Handle} {j r : Job} (hj : s.jobOf h = some j)
    (ht : t.jobs[h.slot] = ⟨h.gen, some r⟩) : t.jobOf h = some r := by
  unfold State.jobOf at hj
  split at hj
  · next hg => rw [State.jobOf, ht, if_pos ⟨rfl, hg.2⟩]
  · cases hj

/-- A change of the job that a handle names changes the record in its slot. -/
theorem State.mapJob_slot {s : State} {h : Handle} {j : Job} (hj : s.jobOf h = some j) (f : Job → Job) :
    (s.mapJob h.slot f).jobs = s.jobs.set h.slot ⟨h.gen, some (f j)⟩ := by
  rw [State.mapJob, State.mapSlot_jobs, State.jobOf_slot hj, Option.map_some]

theorem State.mapJob_self {s : State} {h : Handle} {j : Job} (hj : s.jobOf h = some j) (f : Job → Job) :
    (s.mapJob h.slot f).jobs[h.slot] = ⟨h.gen, some (f j)⟩ := by
  simp only [State.mapJob_slot hj, getElem_set_same]

theorem State.mapJob_other (s : State) {i k : Fin 64} (h : k ≠ i) (f : Job → Job) :
    (s.mapJob i f).jobs[k] = s.jobs[k] := getElem_set_other _ h _

/-! ### A dispatch opportunity (R93 to R96) -/

/-- `t` is `s` after press `p`, bound to the job of handle `h`, has looked for a sheet to send: the frames `m` have gone
out, each for a new path entry, and the record of the job is `r`, in which state, press and deliveries stay. -/
structure State.Looked (p : Fin 16) (h : Handle) (j : Job) (m : List FeedFrame) (s t : State) : Prop where
  ru : t.ru = s.ru
  smm : t.smm = s.smm
  store : t.store = s.store
  job : ∃ r, t.jobs[h.slot] = ⟨h.gen, some r⟩ ∧ r.state = j.state ∧ r.press = j.press ∧ r.delivered = j.delivered
  jobs : ∀ i : Fin 64, i ≠ h.slot → t.jobs[i] = s.jobs[i]
  presses : ∀ q : Fin 16, q ≠ p → t.presses[q] = s.presses[q]
  bound : t.presses[p].bound = s.presses[p].bound
  runStall : t.presses[p].runStall = s.presses[p].runStall
  runUnbind : t.presses[p].runUnbind = s.presses[p].runUnbind
  out : t.presses[p].out = s.presses[p].out ++ m
  path : t.presses[p].path.length = s.presses[p].path.length + m.length

section
variable {p : Fin 16} {h : Handle} {j : Job} {m : List FeedFrame} {s t : State}

theorem State.Looked.refl (hj : s.jobOf h = some j) : s.Looked p h j [] s where
  ru := rfl
  smm := rfl
  store := rfl
  job := ⟨j, State.jobOf_slot hj, rfl, rfl, rfl⟩
  jobs _ _ := rfl
  presses _ _ := rfl
  bound := rfl
  runStall := rfl
  runUnbind := rfl
  out := (List.append_nil _).symm
  path := rfl

/-- A change of the press that keeps its binding, the frames sent and the path's length. -/
theorem State.Looked.mapPress (k : s.Looked p h j m t) (f : Press → Press)
    (hf : ∀ pr : Press, (f pr).bound = pr.bound ∧ (f pr).runStall = pr.runStall ∧ (f pr).runUnbind = pr.runUnbind ∧
      (f pr).out = pr.out ∧ (f pr).path = pr.path) : s.Looked p h j m (t.mapPress p f) := by
  obtain ⟨hbound, hstall, hunbind, hout, hpath⟩ := hf t.presses[p]
  have hp := t.mapPress_self p f
  exact {
    ru := k.ru
    smm := k.smm
    store := k.store
    job := k.job
    jobs := k.jobs
    presses := fun q hne => (t.mapPress_other hne f).trans (k.presses q hne)
    bound := by rw [hp, hbound, k.bound]
    runStall := by rw [hp, hstall, k.runStall]
    runUnbind := by rw [hp, hunbind, k.runUnbind]
    out := by rw [hp, hout, k.out]
    path := by rw [hp, hpath, k.path] }

theorem State.Looked.refresh (k : s.Looked p h j m t) : s.Looked p h j m (t.refresh p) :=
  k.mapPress _ fun _ => ⟨rfl, rfl, rfl, rfl, rfl⟩

theorem State.Looked.noSheet (k : s.Looked p h j m t) (c : Choice) : s.Looked p h j m (t.noSheet p c) :=
  (k.mapPress (fun pr => { pr with lastChoice := some c }) fun _ => ⟨rfl, rfl, rfl, rfl, rfl⟩).refresh

theorem State.Looked.notice (k : s.Looked p h j m t) (kind : NoticeKind) (a b : Nat) (d : List Byte) :
    s.Looked p h j m (t.notice kind a b d) :=
  ⟨k.ru, k.smm, k.store, k.job, k.jobs, k.presses, k.bound, k.runStall, k.runUnbind, k.out, k.path⟩

theorem State.Looked.fundsRefused (k : s.Looked p h j m t) (a : Fin 256) (c : Nat) :
    s.Looked p h j m (t.fundsRefused p h a c) := by
  unfold State.fundsRefused
  dsimp only
  split
  · exact (k.noSheet .fundsWait).notice ..
  · exact k.noSheet .fundsWait

theorem Job.takeSheet_kept (fromList : Bool) (x : CopySheet) (j : Job) :
    (j.takeSheet fromList x).state = j.state ∧ (j.takeSheet fromList x).press = j.press ∧
      (j.takeSheet fromList x).delivered = j.delivered := by
  unfold Job.takeSheet
  split <;> exact ⟨rfl, rfl, rfl⟩

/-- A press that has begun to send a sheet (R95). -/
def Press.withSheet (pr : Press) (h : Handle) (j : Job) (x : CopySheet) (r : SheetRecord) (c : Nat) (now : Time) :
    Press :=
  let tag := freshTag pr.path (pr.path.length + 1) pr.tagCounter
  { pr with
    tagCounter := tag + 1
    path := pr.path ++ [newEntry tag h j x r c now]
    lastChoice := none
    tx := some { tag, slot := h.slot, sheet := x.sheet, sent := 0 }
    out := pr.out ++ [sheetHeadOf tag j r] }

theorem State.dispatch_presses (s : State) (p : Fin 16) (h : Handle) (j : Job) (fromList : Bool) (x : CopySheet)
    (r : SheetRecord) (c : Nat) :
    (s.dispatch p h j fromList x r c).presses = s.presses.set p (s.presses[p].withSheet h j x r c s.tb) := by
  simp [State.dispatch, State.send, State.mapJob, Press.withSheet]

/-- A sheet whose charge is reserved goes out as one SHEET_HEAD for one new path entry (R95). -/
theorem State.looked_dispatch (hj : s.jobOf h = some j) (a : Fin 256) (fromList : Bool) (x : CopySheet)
    (r : SheetRecord) (c : Nat) :
    ∃ f, s.Looked p h j [f] ((s.reserve a c).dispatch p h j fromList x r c) := by
  have hpresses : ((s.reserve a c).dispatch p h j fromList x r c).presses =
      s.presses.set p (s.presses[p].withSheet h j x r c s.tb) := State.dispatch_presses (s.reserve a c) ..
  have hpress : ((s.reserve a c).dispatch p h j fromList x r c).presses[p] =
      s.presses[p].withSheet h j x r c s.tb := by simp only [hpresses, getElem_set_same]
  exact ⟨_, {
    ru := rfl
    smm := rfl
    store := rfl
    job := ⟨j.takeSheet fromList x, State.mapJob_self hj _, Job.takeSheet_kept fromList x j⟩
    jobs := fun i hi => State.mapJob_other _ hi _
    presses := fun q hq => by simp only [hpresses, getElem_set_other _ hq]
    bound := (congrArg Press.bound hpress :)
    runStall := (congrArg Press.runStall hpress :)
    runUnbind := (congrArg Press.runUnbind hpress :)
    out := (congrArg Press.out hpress :)
    path := (congrArg (fun pr => pr.path.length) hpress).trans List.length_append }⟩

theorem State.looked_trySheet (hj : s.jobOf h = some j) (fromList : Bool) (x : CopySheet) :
    ∃ m, m.length ≤ 1 ∧ s.Looked p h j m (s.trySheet p h j fromList x) := by
  unfold State.trySheet
  split
  · exact ⟨[], Nat.zero_le 1, (State.Looked.refl hj).noSheet _⟩
  · next r _ =>
    dsimp only
    split
    · obtain ⟨f, hf⟩ := State.looked_dispatch (p := p) hj j.account fromList x r (s.sheetCharge j r)
      exact ⟨[f], Nat.le_refl 1, hf.refresh⟩
    · exact ⟨[], Nat.zero_le 1, (State.Looked.refl hj).fundsRefused ..⟩

/-- An opportunity sends at most one frame, the head of one sheet. -/
theorem State.looked_opportunity (hb : s.presses[p].bound = some h) (hj : s.jobOf h = some j) :
    ∃ m, m.length ≤ 1 ∧ s.Looked p h j m (s.opportunity p) := by
  simp only [State.opportunity, hb, hj]
  split
  · split
    · exact ⟨[], Nat.zero_le 1, (State.Looked.refl hj).noSheet _⟩
    · exact State.looked_trySheet hj true _
    · exact State.looked_trySheet hj false _
  · exact ⟨[], Nat.zero_le 1, (State.Looked.refl hj).refresh⟩

end

/-! ### Binding (R88, R89) -/

/-- The removal of a job takes it out of its queue wherever it stands, and leaves every other queue (R54). -/
theorem Ru.remove_queues (c : Fin 8) (h : Handle) (r : Ru) :
    (r.remove c h).queues = r.queues.set c { r.queues[c] with
      entries := r.queues[c].entries.filter fun x => decide (x.handle ≠ h) } := by
  unfold Ru.remove
  dsimp only
  split <;> rfl

/-- The state in which a press has taken a job, before it looks for a sheet (R89): the job out of its queue, ACTIVE and
bound, and JOB_MARK sent. -/
def State.takeJob (p : Fin 16) (c : Fin 8) (h : Handle) (j : Job) (s : State) : State :=
  (((s.mapRu (Ru.remove c h)).mapJob h.slot fun j => { j with state := .active, press := some p }).mapPress p fun pr =>
    { pr with
      bound := some h
      runStall := some pr.profile.stallTime
      runUnbind := some pr.profile.unbindTime
      lastChoice := none
      watch := none
      stalledTag := none }).send p (.jobMark h j.copies j.label)

theorem State.bind_eq (p : Fin 16) (c : Fin 8) (h : Handle) (j : Job) (s : State) :
    s.bind p c h j = (s.takeJob p c h j).opportunity p := rfl

/-- `t` is `s` after press `p` has bound the job `j` of handle `h` from queue `c` and looked for a sheet of it (R89). -/
structure State.HasBound (p : Fin 16) (c : Fin 8) (h : Handle) (j : Job) (s t : State) : Prop where
  job : ∃ r, t.jobs[h.slot] = ⟨h.gen, some r⟩ ∧ r.state = .active ∧ r.press = some p ∧ r.delivered = j.delivered
  queue : t.ru.queues[c].entries = s.ru.queues[c].entries.filter fun x => decide (x.handle ≠ h)
  queues : ∀ d : Fin 8, d ≠ c → t.ru.queues[d] = s.ru.queues[d]
  bound : t.presses[p].bound = some h
  runStall : t.presses[p].runStall = some s.presses[p].profile.stallTime
  runUnbind : t.presses[p].runUnbind = some s.presses[p].profile.unbindTime
  sent : ∃ m, t.presses[p].out = s.presses[p].out ++ .jobMark h j.copies j.label :: m ∧ m.length ≤ 1 ∧
    t.presses[p].path.length = s.presses[p].path.length + m.length
  jobs : ∀ i : Fin 64, i ≠ h.slot → t.jobs[i] = s.jobs[i]
  presses : ∀ q : Fin 16, q ≠ p → t.presses[q] = s.presses[q]
  smm : t.smm = s.smm
  store : t.store = s.store

/-- The press that has taken a job. -/
theorem State.takeJob_press (p : Fin 16) (c : Fin 8) (h : Handle) (j : Job) (s : State) :
    (s.takeJob p c h j).presses[p] =
      { s.presses[p] with
        bound := some h
        runStall := some s.presses[p].profile.stallTime
        runUnbind := some s.presses[p].profile.unbindTime
        lastChoice := none
        watch := none
        stalledTag := none
        out := s.presses[p].out ++ [.jobMark h j.copies j.label] } := by
  simp [State.takeJob, State.send, State.mapJob]

theorem State.bind_hasBound {s : State} {h : Handle} {j : Job} (p : Fin 16) (c : Fin 8) (hj : s.jobOf h = some j) :
    s.HasBound p c h j (s.bind p c h j) := by
  have hjob : (s.takeJob p c h j).jobs[h.slot] = ⟨h.gen, some { j with state := .active, press := some p }⟩ :=
    State.mapJob_self (s := s.mapRu (Ru.remove c h)) hj _
  have hru : (s.takeJob p c h j).ru.queues = s.ru.queues.set c { s.ru.queues[c] with
      entries := s.ru.queues[c].entries.filter fun x => decide (x.handle ≠ h) } := Ru.remove_queues c h s.ru
  have hpress := s.takeJob_press p c h j
  obtain ⟨m, hm, k⟩ := State.looked_opportunity (p := p) (by rw [hpress]) (State.jobOf_of_slot hj hjob)
  rw [State.bind_eq]
  exact {
    job := k.job
    queue := by simp only [k.ru, hru, getElem_set_same]
    queues := fun d hd => by simp only [k.ru, hru, getElem_set_other _ hd]
    bound := by rw [k.bound, hpress]
    runStall := by rw [k.runStall, hpress]
    runUnbind := by rw [k.runUnbind, hpress]
    sent := ⟨m, by rw [k.out, hpress, List.append_assoc]; rfl, hm, by rw [k.path, hpress]⟩
    jobs := fun i hi => (k.jobs i hi).trans (State.mapJob_other _ hi _)
    presses := fun q hq =>
      ((k.presses q hq).trans (State.mapPress_other _ hq _)).trans (State.mapPress_other _ hq _)
    smm := k.smm
    store := k.store }

/-! ### Which job a press is given (R88, R89) -/

/-- The head of a queue that the press may be given. -/
theorem State.headFor_head {s : State} {pr : Press} {c : Fin 8} {e : QueueEntry} {l : List QueueEntry} {j : Job}
    (hq : s.ru.queues[c].entries = e :: l) (hj : s.jobOf e.handle = some j) (ha : pr.allows j = true) :
    s.headFor pr c = some (e.handle, j) := by simp only [State.headFor, hq, hj, ha, if_true]

/-- A queue whose head, if it has one, the press may not be given has nothing for it. -/
theorem State.headFor_none {s : State} {pr : Press} {c : Fin 8}
    (h : ∀ x l, s.ru.queues[c].entries = x :: l → ∀ i, s.jobOf x.handle = some i → pr.allows i = false) :
    s.headFor pr c = none := by
  unfold State.headFor
  split
  · rfl
  · next x l hq =>
    split
    · next i hi => simp only [h x l hq i hi, Bool.false_eq_true, if_false]
    · rfl

/-- A press is given the first head, in the order of its served classes, that it may be given. -/
theorem State.jobFor_first {s : State} {p : Fin 16} {k : Fin 8} {a b : List (Fin 8)} {h : Handle} {j : Job}
    (hc : s.presses[p].profile.classes = a ++ k :: b) (ha : ∀ d ∈ a, s.headFor s.presses[p] d = none)
    (hk : s.headFor s.presses[p] k = some (h, j)) : s.jobFor p = some (k, h, j) := by
  have hskip : a.findSome? (fun c => (s.headFor s.presses[p] c).map fun x => (c, x)) = none :=
    List.findSome?_eq_none_iff.2 fun d hd => by rw [ha d hd, Option.map_none]
  rw [State.jobFor, hc, List.findSome?_append, hskip, Option.none_or, List.findSome?_cons, hk]
  rfl

/-- A press that serves one class with nothing for it is given nothing. -/
theorem State.jobFor_none {s : State} {p : Fin 16} {c : Fin 8} (hc : s.presses[p].profile.classes = [c])
    (h : s.headFor s.presses[p] c = none) : s.jobFor p = none := by
  rw [State.jobFor, hc, List.findSome?_cons, h]
  rfl

/-- A press that has lost its job is READY exactly when it is ONLINE. -/
theorem Press.unbound_ready (pr : Press) : pr.unbound.ready = decide (pr.link = .online) := Bool.and_true _

theorem Press.mayBind_iff (mode : Mode) (pr : Press) :
    pr.mayBind mode = true ↔ pr.ready = true ∧ pr.held = false ∧ mode = .run := by
  simp [Press.mayBind, and_assoc]

theorem State.bindEvent_binds {s : State} {p : Fin 16} {c : Fin 8} {h : Handle} {j : Job}
    (hr : s.presses[p].ready = true) (hh : s.presses[p].held = false) (hm : s.mlc.mode = .run)
    (hj : s.jobFor p = some (c, h, j)) : s.bindEvent p = s.bind p c h j := by
  rw [State.bindEvent, if_pos ((Press.mayBind_iff ..).2 ⟨hr, hh, hm⟩), hj]

/-- A binding event passes without effect on a press that may not bind or is given nothing. -/
theorem State.bindEvent_idle {s : State} {p : Fin 16}
    (h : s.presses[p].mayBind s.mlc.mode = true → s.jobFor p = none) : s.bindEvent p = s := by
  unfold State.bindEvent
  split
  · next hb => rw [h hb]
  · rfl

theorem State.foldl_bindEvent_idle {s : State} (l : List (Fin 16)) (h : ∀ q ∈ l, s.jobFor q = none) :
    l.foldl (fun s p => s.bindEvent p) s = s := by
  induction l with
  | nil => rfl
  | cons q l ih =>
    rw [List.foldl_cons, State.bindEvent_idle fun _ => h q List.mem_cons_self]
    exact ih fun q hq => h q (List.mem_cons_of_mem _ hq)

/-! ### A queue event (R55) -/

theorem State.mem_servers {s : State} {c : Fin 8} {q : Fin 16} :
    q ∈ s.servers c ↔ s.presses[q].ready = true ∧ c ∈ s.presses[q].profile.classes := by
  simp [State.servers]

theorem State.servers_nodup (s : State) (c : Fin 8) : (s.servers c).Nodup := (List.nodup_finRange 16).filter _

/-- The state in which the engines take a queue event of class `c`, with `n` free choices made. -/
def State.taking (c : Fin 8) (n : Nat) (s : State) : State :=
  { s with ru := { s.ru with reports := s.ru.reports.erase c }, choices := n }

/-- A reported queue event reaches the READY servers one after another, in some order. -/
theorem exec_queueEvent {s : State} {c : Fin 8} (h : c ∈ s.ru.reports) :
    ∃ (l : List (Fin 16)) (n : Nat), l.Perm (s.servers c) ∧
      exec (.queueEvent c) s = .next (l.foldl (fun s p => s.bindEvent p) (s.taking c n)) := by
  exact ⟨(s.inAnyOrder (s.servers c)).1, (s.inAnyOrder (s.servers c)).2.choices, shuffle_perm ..,
    congrArg Host.Outcome.next (if_pos h)⟩

/-- What a press binds from the state in which the event is taken, it binds from the state before. -/
theorem State.HasBound.of_taking {s t : State} {p : Fin 16} {c d : Fin 8} {h : Handle} {j : Job} {n : Nat}
    (k : (s.taking d n).HasBound p c h j t) : s.HasBound p c h j t :=
  ⟨k.job, k.queue, k.queues, k.bound, k.runStall, k.runUnbind, k.sent, k.jobs, k.presses, k.smm, k.store⟩

/-- A queue event with one READY server has it bind the job that it is given. -/
theorem exec_queueEvent_one {s : State} {p : Fin 16} {c k : Fin 8} {h : Handle} {j : Job} (hc : c ∈ s.ru.reports)
    (hs : s.servers c = [p]) (hh : s.presses[p].held = false) (hm : s.mlc.mode = .run)
    (hf : s.jobFor p = some (k, h, j)) (hj : s.jobOf h = some j) :
    ∃ u, exec (.queueEvent c) s = .next u ∧ s.HasBound p k h j u := by
  obtain ⟨l, n, hl, he⟩ := exec_queueEvent hc
  have hr : s.presses[p].ready = true := (State.mem_servers.1 (hs ▸ List.mem_singleton_self p)).1
  rw [hs] at hl
  rw [hl.eq_singleton, List.foldl_cons, List.foldl_nil, State.bindEvent_binds (s := s.taking c n) hr hh hm hf] at he
  exact ⟨_, he, (State.bind_hasBound (s := s.taking c n) p k hj).of_taking⟩

/-- Of several READY servers that each serve the class alone and may be given its one job, the first that the event
reaches takes it and leaves the others nothing. -/
theorem exec_queueEvent_several {s : State} {p : Fin 16} {c : Fin 8} {e : QueueEntry} {j : Job}
    (hc : c ∈ s.ru.reports) (hp : p ∈ s.servers c) (hm : s.mlc.mode = .run) (hq : s.ru.queues[c].entries = [e])
    (hj : s.jobOf e.handle = some j)
    (hall : ∀ q ∈ s.servers c, s.presses[q].held = false ∧ s.presses[q].profile.classes = [c] ∧
      s.presses[q].allows j = true) :
    ∃ u, ∃ q ∈ s.servers c, exec (.queueEvent c) s = .next u ∧ s.HasBound q c e.handle j u := by
  obtain ⟨l, n, hl, he⟩ := exec_queueEvent hc
  cases l with
  | nil => exact absurd (hl.mem_iff.2 hp) List.not_mem_nil
  | cons q l =>
    have hqs : q ∈ s.servers c := hl.mem_iff.1 List.mem_cons_self
    have hql : q ∉ l := (List.nodup_cons.1 (hl.nodup_iff.2 (s.servers_nodup c))).1
    obtain ⟨hheld, hcls, hallow⟩ := hall q hqs
    have hfirst : (s.taking c n).bindEvent q = (s.taking c n).bind q c e.handle j :=
      State.bindEvent_binds (s := s.taking c n) (State.mem_servers.1 hqs).1 hheld hm
        (State.jobFor_first (s := s.taking c n) (a := []) hcls (fun _ hd => absurd hd List.not_mem_nil)
          (State.headFor_head (s := s.taking c n) hq hj hallow))
    have k := (State.bind_hasBound (s := s.taking c n) q c hj).of_taking
    have hempty : ((s.taking c n).bind q c e.handle j).ru.queues[c].entries = [] := by rw [k.queue, hq]; simp
    have hrest := State.foldl_bindEvent_idle (s := (s.taking c n).bind q c e.handle j) l fun x hx => by
      have hx' := k.presses x fun e => hql (e ▸ hx)
      refine State.jobFor_none (c := c) ?_ (State.headFor_none fun y l' hy => ?_)
      · rw [hx']
        exact (hall x (hl.mem_iff.1 (List.mem_cons_of_mem _ hx))).2.1
      · rw [hempty] at hy
        cases hy
    rw [List.foldl_cons, hfirst, hrest] at he
    exact ⟨_, q, hqs, he, k⟩

/-! ### The unbind deadline (R90, R105) -/

/-- The state in which an unbind deadline has returned the job of a press to the head of its queue and unbound the
press. -/
def State.returned (p : Fin 16) (h : Handle) (j : Job) (s : State) : State :=
  { s with
    jobs := s.jobs.set h.slot { gen := h.gen, job := some { j with state := .queued, press := none } }
    ru := { s.ru with
      queues := s.ru.queues.set j.cls { s.ru.queues[j.cls] with
        entries := { handle := h, urgent := j.urgent } :: s.ru.queues[j.cls].entries }
      reports := s.ru.reports ++ [j.cls] }
    presses := s.presses.set p s.presses[p].unbound }

theorem State.unbind_returnJob {s : State} {h : Handle} {j : Job} (p : Fin 16) (hj : s.jobOf h = some j) :
    (s.returnJob h j).unbind p = (s.returned p h j).bindEvent p := by
  have hs : (s.returnJob h j).mapPress p Press.unbound = s.returned p h j := by
    simp only [State.returnJob, State.mapJob, State.mapSlot, State.jobOf_slot hj, Option.map_some]
    rfl
  rw [State.unbind, hs]

section
variable {s : State} {p : Fin 16} {t : Time} {h : Handle} {j : Job}

/-- The job returned is QUEUED and otherwise what it was. -/
theorem State.returned_jobOf (hj : s.jobOf h = some j) :
    (s.returned p h j).jobOf h = some { j with state := .queued, press := none } :=
  State.jobOf_of_slot hj (getElem_set_same _ _ _)

theorem State.returned_press : (s.returned p h j).presses[p] = s.presses[p].unbound :=
  getElem_set_same _ _ _

/-- It stands at the head of its queue. -/
theorem State.returned_queue :
    (s.returned p h j).ru.queues[j.cls].entries = { handle := h, urgent := j.urgent } :: s.ru.queues[j.cls].entries :=
  congrArg ClassQueue.entries (getElem_set_same _ _ _)

theorem exec_unbindDeadline_early (ht : s.presses[p].unbindDeadline = some t) (hr : reached s.tb t = false) :
    exec (.unbindDeadline p) s = .next s := by
  have hdue : ¬ s.due s.presses[p].unbindDeadline = true := by rw [ht, State.due, hr]; exact Bool.false_ne_true
  exact congrArg Host.Outcome.next (if_neg hdue)

theorem exec_unbindDeadline_reached (ht : s.presses[p].unbindDeadline = some t) (hr : reached s.tb t = true) :
    exec (.unbindDeadline p) s = .next (s.unbindExpiry p) := by
  have hdue : s.due s.presses[p].unbindDeadline = true := by rw [ht, State.due, hr]
  exact congrArg Host.Outcome.next (if_pos hdue)

/-- With no room in its queue the job stays, and the timer starts again (R105). -/
theorem State.unbindExpiry_full (hb : s.presses[p].bound = some h) (hj : s.jobOf h = some j)
    (hroom : s.ru.queues[j.cls].capacity ≤ s.ru.queues[j.cls].entries.length) :
    s.unbindExpiry p = s.mapPress p (Press.restartUnbind s.tb) := by
  have hfull : ¬ s.roomFor j = true := fun e => absurd (of_decide_eq_true e) (Nat.not_lt.2 hroom)
  simp only [State.unbindExpiry, hb, Option.bind_some, hj, Option.map_some, if_neg hfull]

/-- With room the job is returned, and the press unbound has a binding event (R90, R105). -/
theorem State.unbindExpiry_room (hb : s.presses[p].bound = some h) (hj : s.jobOf h = some j)
    (hroom : s.ru.queues[j.cls].entries.length < s.ru.queues[j.cls].capacity) :
    s.unbindExpiry p = (s.returned p h j).bindEvent p := by
  have hfits : s.roomFor j = true := decide_eq_true hroom
  simp only [State.unbindExpiry, hb, Option.bind_some, hj, Option.map_some, if_pos hfits, State.unbind_returnJob p hj]

/-- A press that is held, outside RUN, not ONLINE, or serving the class of the job alone without being fit for it does
not bind after the return. -/
theorem State.returned_idle (hj : s.jobOf h = some j)
    (hno : s.presses[p].held = true ∨ s.mlc.mode ≠ .run ∨ s.presses[p].link ≠ .online ∨
      (s.presses[p].profile.classes = [j.cls] ∧ s.presses[p].allows j = false)) :
    (s.returned p h j).bindEvent p = s.returned p h j := by
  refine State.bindEvent_idle fun hb => ?_
  obtain ⟨hready, hheld, hmode⟩ := (Press.mayBind_iff ..).1 hb
  have hpress := State.returned_press (s := s) (p := p) (h := h) (j := j)
  rw [hpress, Press.unbound_ready] at hready
  rw [hpress] at hheld
  obtain hno | hno | hno | ⟨hcls, hallow⟩ := hno
  · exact absurd (hno.symm.trans hheld) Bool.noConfusion
  · exact absurd hmode hno
  · exact absurd (of_decide_eq_true hready) hno
  · refine State.jobFor_none (c := j.cls) (by rw [hpress]; exact hcls) (State.headFor_none fun x l hx i hi => ?_)
    rw [State.returned_queue] at hx
    obtain ⟨rfl, -⟩ := List.cons.inj hx
    rw [State.returned_jobOf hj] at hi
    obtain rfl := Option.some.inj hi
    rw [hpress]
    exact hallow

/-- A READY press in RUN that serves that class alone and is fit for the job takes it again. -/
theorem State.returned_rebinds (hj : s.jobOf h = some j) (hheld : s.presses[p].held = false) (hmode : s.mlc.mode = .run)
    (hlink : s.presses[p].link = .online) (hcls : s.presses[p].profile.classes = [j.cls])
    (hallow : s.presses[p].allows j = true) :
    (s.returned p h j).HasBound p j.cls h { j with state := .queued, press := none }
      ((s.returned p h j).bindEvent p) := by
  have hpress := State.returned_press (s := s) (p := p) (h := h) (j := j)
  have hj' := State.returned_jobOf (p := p) hj
  have hhead := State.headFor_head (pr := (s.returned p h j).presses[p]) State.returned_queue hj'
    (by rw [hpress]; exact hallow)
  have hfor := State.jobFor_first (a := []) (by rw [hpress]; exact hcls) (fun _ hd => absurd hd List.not_mem_nil) hhead
  have hready : (s.returned p h j).presses[p].ready = true := by
    rw [hpress, Press.unbound_ready, decide_eq_true hlink]
  rw [State.bindEvent_binds (s := s.returned p h j) hready (by rw [hpress]; exact hheld) hmode hfor]
  exact State.bind_hasBound p j.cls hj'

end

/-- Settles O57: a queue event gives its job to one READY server, and an unbind deadline returns it, the press perhaps
taking it again. -/
theorem jobsBindAndReturn : Obligations.JobsBindAndReturn := by
  intro p s pr
  refine ⟨fun c k a b e l j hc hs hheld hmode hcls hskip hq hj hallow hpath => ?_,
    fun c e j hc hp hmode hq hj hall => ?_, fun c hc => congrArg Host.Outcome.next (if_neg hc),
    fun t h j ht hb hj => ⟨fun hr => exec_unbindDeadline_early ht hr, fun hr hroom => ?_, fun hr hroom hno => ?_,
      fun hr hroom hheld hmode hlink hcls hallow hpath => ?_⟩⟩
  · have hfor : s.jobFor p = some (k, e.handle, j) :=
      State.jobFor_first hcls (fun d hd => State.headFor_none (hskip d hd)) (State.headFor_head hq hj hallow)
    obtain ⟨u, he, w⟩ := exec_queueEvent_one hc hs hheld hmode hfor hj
    obtain ⟨r, hr, hstate, hpress, hdel⟩ := w.job
    obtain ⟨m, hout, hm, hlen⟩ := w.sent
    have hqueue : u.ru.queues[k].entries = l.filter fun x => decide (x.handle ≠ e.handle) := by
      rw [w.queue, hq]
      simp
    have hlen' : u.presses[p].path.length = m.length := by
      rw [hlen, show s.presses[p].path = [] from hpath, List.length_nil, Nat.zero_add]
    exact ⟨u, r, m, he, hr, hstate, hpress, hdel, hqueue, w.queues, w.bound, w.runStall, w.runUnbind, hout, hm, hlen',
      w.jobs, w.presses, w.smm, w.store⟩
  · obtain ⟨u, q, hqs, he, w⟩ := exec_queueEvent_several hc hp hmode hq hj hall
    obtain ⟨r, hr, hstate, hpress, -⟩ := w.job
    exact ⟨u, q, hqs, he, w.bound, by rw [w.queue, hq]; simp, ⟨r, hr, hstate, hpress⟩, w.jobs, w.presses⟩
  · rw [exec_unbindDeadline_reached ht hr, State.unbindExpiry_full hb hj hroom]
    rfl
  · rw [exec_unbindDeadline_reached ht hr, State.unbindExpiry_room hb hj hroom, State.returned_idle hj hno]
    rfl
  · have w := State.returned_rebinds hj hheld hmode hlink hcls hallow
    have hpr := State.returned_press (s := s) (p := p) (h := h) (j := j)
    obtain ⟨r, hr', hstate, hpress, hdel⟩ := w.job
    obtain ⟨m, hout, hm, hlen⟩ := w.sent
    have he := exec_unbindDeadline_reached ht hr
    rw [State.unbindExpiry_room hb hj hroom] at he
    have hlen' : ((s.returned p h j).bindEvent p).presses[p].path.length = m.length := by
      rw [hlen, hpr, Press.unbound, show s.presses[p].path = [] from hpath, List.length_nil, Nat.zero_add]
    refine ⟨_, r, m, he, hr', hstate, hpress, hdel, ?_, w.bound, ?_, ?_, ?_, hm, hlen', fun q hq => ?_, fun i hi => ?_,
      w.smm, w.store⟩
    · rw [w.queue, State.returned_queue]
      simp
    · rw [w.runStall, hpr]; rfl
    · rw [w.runUnbind, hpr]; rfl
    · rw [hout, hpr]; rfl
    · exact (w.presses q hq).trans (getElem_set_other _ hq _)
    · exact (w.jobs i hi).trans (getElem_set_other _ hi _)

end Sys2Proof.Machine
end

section
/-! Feed-link frames from a press (R70, R210): a hunting receiver takes the bytes of a whole frame one after another to
its body and its check, and the body spells the frame that was encoded. -/

namespace Sys2Proof.Machine

/-! ### The receiver on a whole frame -/

/-- A byte that brings nothing about only moves the receiver. -/
theorem FeedRx.feedAll_quiet {r r' : FeedRx} {b : Byte} (h : r.feed b = (r', .nothing)) (l : List Byte) :
    r.feedAll (b :: l) = r'.feedAll l := by
  rw [FeedRx.feedAll, h]; rfl

/-- The last byte of a frame brings its one event about. -/
theorem FeedRx.feedAll_last {r r' : FeedRx} {b : Byte} {e : FeedEvent} (h : r.feed b = (r', e)) (he : e ≠ .nothing) :
    r.feedAll [b] = (r', [e]) := by
  simp only [FeedRx.feedAll, h, if_neg he]

/-- The bytes that a body still lacks are taken one by one, and the receiver stands at the check. -/
theorem FeedRx.feedAll_body (typ : Byte) (len : Nat) (rest l taken : List Byte)
    (h : taken.length + rest.length = len) :
    (feedContentDone typ len taken).feedAll (rest ++ l) = (FeedRx.check typ len (taken ++ rest) none).feedAll l := by
  induction rest generalizing taken with
  | nil =>
    rw [feedContentDone, if_pos (by simp at h; omega), List.append_nil, List.nil_append]
  | cons b rest ih =>
    rw [feedContentDone, if_neg (by simp at h; omega), List.cons_append, FeedRx.feedAll_quiet rfl,
      ih _ (by simp at h ⊢; omega), List.append_assoc, List.singleton_append]

theorem feedSound_ne_nothing (typ : Byte) (body : List Byte) : feedSound typ body ≠ .nothing := by
  unfold feedSound
  split <;> exact nofun

/-- A whole frame, fed to a hunting receiver, is what its type and body spell, and the receiver hunts again (R70). -/
theorem FeedRx.feedAll_feedFrame (typ : Byte) (body : List Byte) (h : body.length ≤ 1026) :
    FeedRx.hunt.feedAll (feedFrame typ body) = (.hunt, [feedSound typ body]) := by
  have hlen := be16_u16 body.length (by omega)
  have hcheck := be16_u16 (crc16 (feedChecked typ body)).toNat (crc16 (feedChecked typ body)).isLt
  have hhead : (FeedRx.head (some typ) (some (BitVec.ofNat 8 (body.length / 256)))).feed (BitVec.ofNat 8 body.length) =
      (feedContentDone typ body.length [], .nothing) := by
    simp only [FeedRx.feed, hlen, Config.maxFeedBody, if_neg (Nat.not_lt.mpr h)]
  have hlast : (FeedRx.check typ body.length body
        (some (BitVec.ofNat 8 ((crc16 (feedChecked typ body)).toNat / 256)))).feed
      (BitVec.ofNat 8 (crc16 (feedChecked typ body)).toNat) = (.hunt, feedSound typ body) :=
    congrArg (FeedRx.hunt, ·) (if_pos hcheck)
  calc FeedRx.hunt.feedAll (feedFrame typ body)
      = (FeedRx.head none none).feedAll (feedChecked typ body ++ checkBytes (crc16 (feedChecked typ body))) :=
        FeedRx.feedAll_quiet rfl _
    _ = (FeedRx.head (some typ) none).feedAll (u16 body.length ++ body ++ checkBytes (crc16 (feedChecked typ body))) :=
        FeedRx.feedAll_quiet rfl _
    _ = (FeedRx.head (some typ) (some (BitVec.ofNat 8 (body.length / 256)))).feedAll
          (BitVec.ofNat 8 body.length :: (body ++ checkBytes (crc16 (feedChecked typ body)))) :=
        FeedRx.feedAll_quiet rfl _
    _ = (feedContentDone typ body.length []).feedAll (body ++ checkBytes (crc16 (feedChecked typ body))) :=
        FeedRx.feedAll_quiet hhead _
    _ = (FeedRx.check typ body.length body none).feedAll (checkBytes (crc16 (feedChecked typ body))) :=
        FeedRx.feedAll_body typ body.length body _ [] (Nat.zero_add _)
    _ = (FeedRx.check typ body.length body
          (some (BitVec.ofNat 8 ((crc16 (feedChecked typ body)).toNat / 256)))).feedAll
          [BitVec.ofNat 8 (crc16 (feedChecked typ body)).toNat] := FeedRx.feedAll_quiet rfl _
    _ = (.hunt, [feedSound typ body]) := FeedRx.feedAll_last hlast (feedSound_ne_nothing typ body)

/-! ### What a body spells -/

/-- A text field reads back. -/
theorem textOf_toList {n : Nat} (v : Vector Byte n) : textOf n v.toList = some v := by
  rw [textOf, dif_pos v.length_toList]
  rfl

/-- The tags of a FAULT read back, two bytes each. -/
theorem tagsOf_bytes (tags : List Half) : tagsOf (tags.flatMap fun t => u16 t.toNat) = some tags := by
  induction tags with
  | nil => rfl
  | cons t tags ih =>
    have hb (l : List Byte) : tagsOf (u16 t.toNat ++ l) = (tagsOf l).map (t :: ·) := by
      rw [u16, List.cons_append, List.singleton_append, tagsOf, tagOf_u16]
    rw [List.flatMap_cons, hb, ih, Option.map_some]

/-- A HELLO is spelled by its two text fields and the three bytes behind them. -/
theorem parseFeed_hello {body : List Byte} {model : Vector Byte 16} {serial : Vector Byte 12}
    {caps grades window : Byte} (hm : textOf 16 (body.take 16) = some model)
    (hs : textOf 12 ((body.drop 16).take 12) = some serial)
    (ht : body.drop 28 = [caps, grades, window]) :
    parseFeed 0x81 body = some (.hello model serial caps grades window) := by
  simp [parseFeed, hm, hs, ht]

/-- Each frame reads back from its type and body (R70, R210). -/
theorem parseFeed_body (f : PressFrame) (h : ∀ k d tags, f = .fault k d tags → tags.length ≤ 8) :
    parseFeed f.typ f.body = some f := by
  cases f with
  | hello model serial caps grades window =>
    have hmodel : (model.toList ++ (serial.toList ++ [caps, grades, window])).take 16 = model.toList :=
      List.take_left' model.length_toList
    have hrest : (model.toList ++ (serial.toList ++ [caps, grades, window])).drop 16 =
        serial.toList ++ [caps, grades, window] := List.drop_left' model.length_toList
    rw [PressFrame.body, List.append_assoc]
    refine parseFeed_hello (by rw [hmodel, textOf_toList]) ?_ ?_
    · rw [hrest, List.take_left' serial.length_toList, textOf_toList]
    · rw [show 28 = 16 + 12 from rfl, ← List.drop_drop, hrest, List.drop_left' serial.length_toList]
  | window w => rfl
  | taken t => exact congrArg (fun t => some (PressFrame.taken t)) (tagOf_u16 t)
  | delivered t => exact congrArg (fun t => some (PressFrame.delivered t)) (tagOf_u16 t)
  | fault k d tags =>
    have hl := h k d tags rfl
    have hcount : tags.length % 256 = tags.length := by omega
    simp [parseFeed, PressFrame.typ, PressFrame.body, tagsOf_bytes, hcount, hl]
  | clear k d => simp [parseFeed, PressFrame.typ, PressFrame.body]
  | beat => rfl

/-- Every body fits the link. -/
theorem PressFrame.body_length (f : PressFrame) (h : ∀ k d tags, f = .fault k d tags → tags.length ≤ 8) :
    f.body.length ≤ 1026 := by
  cases f with
  | fault k d tags =>
    have hl := h k d tags rfl
    simp [PressFrame.body, List.length_flatMap]; omega
  | _ => simp [PressFrame.body]

/-- Settles O13: a whole frame passes its check and its length, and its body spells it. -/
theorem feedFramesDecode : Obligations.FeedFramesDecode := by
  intro f hf
  rw [FeedRx.feedAll_feedFrame _ _ (f.body_length hf), feedSound, parseFeed_body f hf]

end Sys2Proof.Machine
end

section
/-! The alert unit's raises and condition ends (chapter 9): the entry each leaves, the entries it leaves alone, and what
it may change of the presses. -/

namespace Sys2Proof.Machine

/-! ### Entries and tables -/

theorem AlertKind.all_code (k : AlertKind) : AlertKind.all[k.code.val]? = some k := by cases k <;> rfl

theorem AlertKind.code_injective {k k' : AlertKind} (h : k.code = k'.code) : k = k' :=
  Option.some.inj (by rw [← AlertKind.all_code k, h, AlertKind.all_code k'])

/-- The momentary kinds are the three of R173. -/
theorem AlertKind.momentary_iff (k : AlertKind) :
    k.momentary = true ↔ k = .misfeed ∨ k = .protocol ∨ k = .pressRestart := by
  cases k <;> simp [AlertKind.momentary]

/-- A condition that ends leaves an ACTIVE entry waiting for its retry or for a clear (R174). -/
theorem AlertEntry.ended_active {e : AlertEntry} (now : Time) (h : e.state = .active) :
    e.ended now =
      if e.mode = .retry then { e with state := .retryWait, deadline := some (now + secs e.retry) }
      else { e with state := .clearWait } := by
  cases hm : e.mode <;> simp [AlertEntry.ended, h, hm]

theorem AlertEntry.ended_other {e : AlertEntry} (now : Time) (h : e.state ≠ .active) : e.ended now = e := by
  unfold AlertEntry.ended
  split
  · contradiction
  · rfl

section
variable (s : State) (p : Fin 16)

theorem State.setEntry_entry (k : AlertKind) (e : Option AlertEntry) : (s.setEntry p k e).entry p k = e := by
  simp [State.setEntry, State.entry]

theorem State.setEntry_entry_other {k k' : AlertKind} (h : k' ≠ k) (e : Option AlertEntry) :
    (s.setEntry p k e).entry p k' = s.entry p k' := by
  have hc : k.code ≠ k'.code := fun hc => h (AlertKind.code_injective hc).symm
  simp [State.setEntry, State.entry, Vector.getElem_set_ne, Fin.val_ne_of_ne hc]

/-- A raise under IGNORE leaves the entry as it is (R171). -/
theorem State.raisedEntry_ignored {k : AlertKind} (h : s.au.modes[k.code].mode = .ignore) (d : Byte) :
    s.raisedEntry p k d = s.entry p k := if_pos h

/-- Otherwise it creates the entry where there is none (R171), its condition ended at once for a momentary kind
(R173). -/
theorem State.raisedEntry_created {k : AlertKind} (h : s.au.modes[k.code].mode ≠ .ignore) (he : s.entry p k = none)
    (d : Byte) : s.raisedEntry p k d = some ((AlertEntry.create s.au.modes[k.code] d s.tb).settled k s.tb) := by
  unfold State.raisedEntry
  simp only [if_neg h, he]
  split
  · next hk =>
    rw [AlertEntry.settled, if_pos ((AlertKind.momentary_iff k).mpr hk),
      AlertEntry.ended_active (e := AlertEntry.create ..) s.tb rfl]
    rfl
  · next hk => rw [AlertEntry.settled, if_neg fun h => hk ((AlertKind.momentary_iff k).mp h)]; rfl

/-- Where there is one it is raised again (R172). -/
theorem State.raisedEntry_reraised {k : AlertKind} {e : AlertEntry} (h : s.au.modes[k.code].mode ≠ .ignore)
    (he : s.entry p k = some e) (d : Byte) : s.raisedEntry p k d = some ((e.reraise d).settled k s.tb) := by
  unfold State.raisedEntry
  simp only [if_neg h, he]
  split
  · next hk =>
    rw [AlertEntry.settled, if_pos ((AlertKind.momentary_iff k).mpr hk),
      AlertEntry.ended_active (e := e.reraise d) s.tb rfl]
    rfl
  · next hk => rw [AlertEntry.settled, if_neg fun h => hk ((AlertKind.momentary_iff k).mp h)]; rfl

/-- The entry after a condition end, in the terms of R174. -/
theorem State.endedEntry_eq (k : AlertKind) (d : Option Byte) :
    s.endedEntry p k d = (s.entry p k).map fun e => (e.withDetail d).ended s.tb := by
  unfold State.endedEntry
  congr 1
  funext e
  by_cases h : (e.withDetail d).state = .active
  · rw [AlertEntry.ended_active s.tb h]; exact if_neg (not_not_intro h)
  · rw [AlertEntry.ended_other s.tb h]; exact if_pos h

/-- A raise reads the time, the response modes and the entry of its kind, and no more. -/
theorem State.raisedEntry_congr {s t : State} {p : Fin 16} {k : AlertKind} (htb : t.tb = s.tb)
    (hmodes : t.au.modes = s.au.modes) (he : t.entry p k = s.entry p k) (d : Byte) :
    t.raisedEntry p k d = s.raisedEntry p k d := by
  simp only [State.raisedEntry, htb, hmodes, he]

end

/-! ### What the beginning of a hold changes of the presses (R106) -/

/-- The presses of `t` are those of `s` but for the held flag, the feed condition, the unbind timer, the transmission
and the frames sent of press `p`. -/
def State.HoldMoves (p : Fin 16) (s t : State) : Prop :=
  ∃ held cond unbindDeadline tx out,
    t.presses = s.presses.set p { s.presses[p] with held, cond, unbindDeadline, tx, out }

section
variable {s t u : State} {p : Fin 16}

theorem State.HoldMoves.of_eq (h : t.presses = s.presses) : s.HoldMoves p t :=
  ⟨s.presses[p].held, s.presses[p].cond, s.presses[p].unbindDeadline, s.presses[p].tx, s.presses[p].out,
    h.trans (Vector.set_getElem_self _).symm⟩

theorem State.HoldMoves.trans (a : s.HoldMoves p t) (b : t.HoldMoves p u) : s.HoldMoves p u := by
  obtain ⟨_, _, _, _, _, ha⟩ := a
  obtain ⟨held, cond, unbindDeadline, tx, out, hb⟩ := b
  exact ⟨held, cond, unbindDeadline, tx, out, by simp [hb, ha]⟩

theorem State.HoldMoves.other (a : s.HoldMoves p t) {q : Fin 16} (h : q ≠ p) : t.presses[q] = s.presses[q] := by
  obtain ⟨_, _, _, _, _, ha⟩ := a
  simp only [ha, getElem_set_other _ h]

theorem State.HoldMoves.self (a : s.HoldMoves p t) :
    ∃ held cond unbindDeadline tx out, t.presses[p] = { s.presses[p] with held, cond, unbindDeadline, tx, out } := by
  obtain ⟨held, cond, unbindDeadline, tx, out, ha⟩ := a
  exact ⟨held, cond, unbindDeadline, tx, out, by simp only [ha, getElem_set_same]⟩

/-- The data frames that go out before another frame move the transmission and the output of its press. -/
theorem State.advanceTx_holdMoves (s : State) (p : Fin 16) : s.HoldMoves p (s.advanceTx p) := by
  unfold State.advanceTx
  split
  · obtain ⟨c, hc⟩ := (s.anyUpTo_spec (s.dataLeft _)).2
    dsimp only
    rw [hc]
    exact ⟨_, _, _, _, _, rfl⟩
  · exact .of_eq rfl

theorem State.holdBegun_holdMoves (s : State) (p : Fin 16) : s.HoldMoves p (s.holdBegun p) := by
  have hheld : s.HoldMoves p (s.mapPress p fun pr => { pr with held := true }) := ⟨_, _, _, _, _, rfl⟩
  have hsend (u : State) (f : FeedFrame) : u.HoldMoves p (u.send p f) := ⟨_, _, _, _, _, rfl⟩
  have hrefresh (u : State) : u.HoldMoves p ((u.markPending p).refresh p) := ⟨_, _, _, _, _, rfl⟩
  exact ((hheld.trans (State.advanceTx_holdMoves _ p)).trans (hsend _ _)).trans (hrefresh _)

/-! ### Raises (R171 to R173) -/

/-- An entry created is there when the raise is done, its condition ended where the kind is momentary. -/
theorem State.raiseNew_entry (s : State) (p : Fin 16) (k : AlertKind) (e : AlertEntry) :
    (s.raiseNew p k e).entry p k = some (e.settled k s.tb) := by
  have htb : (s.setEntry p k (some e)).tb = s.tb := rfl
  have hheld := (State.holdBegun_sameWork p (s.setEntry p k (some e))).tb
  unfold State.raiseNew
  dsimp only
  split
  · exact (State.setEntry_entry _ p k _).trans (by rw [hheld, htb])
  · exact State.setEntry_entry _ p k _

theorem State.raiseNew_holdMoves (s : State) (p : Fin 16) (k : AlertKind) (e : AlertEntry) :
    s.HoldMoves p (s.raiseNew p k e) := by
  unfold State.raiseNew
  dsimp only
  split
  · exact ((State.HoldMoves.of_eq rfl).trans (State.holdBegun_holdMoves (s.setEntry p k (some e)) p)).trans
      (State.HoldMoves.of_eq rfl)
  · exact .of_eq rfl

theorem State.raise_dropped {k : AlertKind} (h : s.au.modes[k.code].mode = .ignore) (d : Byte) :
    s.raise p k d = (s, .dropped) := if_pos h

theorem State.raise_answered {k : AlertKind} (h : s.au.modes[k.code].mode ≠ .ignore) (d : Byte) :
    (s.raise p k d).2 ≠ .dropped := by
  rw [State.raise, if_neg h]
  split <;> exact nofun

/-- A raise leaves the entry that R171 to R173 give. -/
theorem State.raise_entry (s : State) (p : Fin 16) (k : AlertKind) (d : Byte) :
    (s.raise p k d).1.entry p k = s.raisedEntry p k d := by
  by_cases h : s.au.modes[k.code].mode = .ignore
  · rw [State.raisedEntry_ignored s p h, State.raise_dropped h]
  · cases he : s.entry p k with
    | none =>
      simp only [State.raise, if_neg h, he, State.raisedEntry_created s p h he]
      exact State.raiseNew_entry ..
    | some e =>
      simp only [State.raise, if_neg h, he, State.raisedEntry_reraised s p h he]
      exact State.setEntry_entry ..

/-- Of the presses a raise changes what a hold that begins does. -/
theorem State.raise_holdMoves (s : State) (p : Fin 16) (k : AlertKind) (d : Byte) :
    s.HoldMoves p (s.raise p k d).1 := by
  unfold State.raise
  split
  · exact .of_eq rfl
  · split
    · exact State.raiseNew_holdMoves ..
    · exact .of_eq rfl

/-! ### Condition ends (R174, R175) -/

/-- The end of a condition leaves every press, the store, the response modes and the entries of other kinds. -/
theorem State.conditionEnd_leaves (s : State) (p : Fin 16) (k : AlertKind) (d : Option Byte) :
    (s.conditionEnd p k d).presses = s.presses ∧ (s.conditionEnd p k d).store = s.store ∧
      (s.conditionEnd p k d).au.modes = s.au.modes ∧
      ∀ k', k' ≠ k → (s.conditionEnd p k d).entry p k' = s.entry p k' := by
  unfold State.conditionEnd
  split
  · exact ⟨rfl, rfl, rfl, fun _ _ => rfl⟩
  · dsimp only
    split
    · exact ⟨rfl, rfl, rfl, fun _ h => State.setEntry_entry_other s p h _⟩
    · split <;> exact ⟨rfl, rfl, rfl, fun _ h => State.setEntry_entry_other s p h _⟩

/-- The end of the condition of an ACTIVE entry of a kind that is not momentary: the entry, the zone and the notice. -/
theorem State.conditionEnd_active {k : AlertKind} {e e' : AlertEntry} {d : Option Byte} (he : s.entry p k = some e)
    (ha : e.state = .active) (hk : k.momentary = false) (he' : s.endedEntry p k d = some e') :
    s.conditionEnd p k d =
      ((s.setEntry p k (some e')).handToZone p).notice .alert 2 p.val (endedDetail k e') := by
  obtain rfl : (e.withDetail d).ended s.tb = e' := by
    rw [State.endedEntry_eq, he] at he'
    exact Option.some.inj he'
  have hmoves : ((e.withDetail d).ended s.tb).state ≠ e.state := by
    rw [AlertEntry.ended_active (e := e.withDetail d) s.tb ha, ha]
    split <;> exact nofun
  simp only [State.conditionEnd, he, if_neg hmoves, hk, Bool.false_eq_true, if_false]

end

end Sys2Proof.Machine
end

section
/-! Frames that an ONLINE press hears (R70, R71, R79): the first step of every frame, the end of a silence, and what a
frame that fails its check or is malformed brings about. -/

namespace Sys2Proof.Machine

section
variable {s t : State} {p : Fin 16}

/-! ### The first step of a frame (R71, R79) -/

theorem State.onlineFrame_offline (h : s.presses[p].link ≠ .online) (f : State → State) : s.onlineFrame p f = s :=
  if_neg h

theorem State.onlineFrame_online (h : s.presses[p].link = .online) (f : State → State) :
    s.onlineFrame p f = f (s.heard p) := if_pos h

/-- A frame heard on a press that is not silent sets its last frame time and nothing else. -/
theorem State.heard_quiet (h : s.silent p = false) :
    s.heard p = s.mapPress p fun pr => { pr with lastFrame := some s.tb } :=
  if_neg (c := (s.silent p = true)) (by rw [h]; exact Bool.false_ne_true)

theorem State.silent_of_entry {e : AlertEntry} (he : s.entry p .linkSilent = some e) (ha : e.state = .active) :
    s.silent p = true := by simp [State.silent, he, ha]

/-- A frame heard on a silent press ends the silence too. -/
theorem State.heard_silent (h : s.silent p = true) :
    s.heard p = (s.mapPress p fun pr => { pr with lastFrame := some s.tb }).conditionEnd p .linkSilent none :=
  if_pos (c := (s.silent p = true)) h

/-- Either way the presses differ by the last frame time, and the store, the response modes and the entries of other
kinds stay. -/
theorem State.heard_leaves (s : State) (p : Fin 16) :
    (s.heard p).presses = s.presses.set p { s.presses[p] with lastFrame := some s.tb } ∧
      (s.heard p).store = s.store ∧ (s.heard p).au.modes = s.au.modes ∧
      ∀ k, k ≠ .linkSilent → (s.heard p).entry p k = s.entry p k := by
  cases h : s.silent p with
  | false => rw [State.heard_quiet h]; exact ⟨rfl, rfl, rfl, fun _ _ => rfl⟩
  | true => rw [State.heard_silent h]; exact State.conditionEnd_leaves ..

/-- A frame that is heard and then raises PROTOCOL. -/
theorem State.heard_protocol (s : State) (p : Fin 16) (e : ProtocolError) :
    s.SameWork ((s.heard p).protocol p e) ∧ ((s.heard p).protocol p e).presses[p].lastFrame = some s.tb ∧
      ((s.heard p).protocol p e).entry p .protocol = s.raisedEntry p .protocol e.code ∧
      ∀ q : Fin 16, q ≠ p → ((s.heard p).protocol p e).presses[q] = s.presses[q] := by
  obtain ⟨hpresses, -, hmodes, hentry⟩ := s.heard_leaves p
  have hwork := State.heard_sameWork p s
  have hraise := (s.heard p).raise_holdMoves p .protocol e.code
  refine ⟨hwork.trans (State.raise_sameWork p .protocol e.code _), ?_, ?_, fun q hq => ?_⟩
  · obtain ⟨_, _, _, _, _, hself⟩ := hraise.self
    have hp : (s.heard p).presses[p].lastFrame = some s.tb := by simp only [hpresses, getElem_set_same]
    exact (congrArg Press.lastFrame hself).trans hp
  · exact (State.raise_entry ..).trans (State.raisedEntry_congr hwork.tb hmodes (hentry .protocol nofun) _)
  · exact (hraise.other hq).trans (by simp only [hpresses, getElem_set_other _ hq])

/-- BEAT of a silent press (R79): the silence ends, with the zone's pattern and the notice that follow. -/
theorem State.heard_ends {e e' : AlertEntry} (he : s.entry p .linkSilent = some e) (ha : e.state = .active)
    (he' : s.endedEntry p .linkSilent none = some e') :
    let presses := s.presses.set p { s.presses[p] with lastFrame := some s.tb }
    let au : Au := { s.au with tables := s.au.tables.set p (s.au.tables[p].set 6 (some e')) }
    let z := s.presses[p].profile.zone
    s.heard p = State.notice .alert 2 p.val (endedDetail .linkSilent e')
      { s with
        presses, au
        zones := s.zones.set z
          ((s.zones[z]).derive s.tb (patternOf (State.zoneEntries { s with presses, au } z))) } := by
  intro presses au z
  have hz : (s.mapPress p fun pr => { pr with lastFrame := some s.tb }).presses[p].profile.zone = z := by
    rw [State.mapPress_self]
  rw [State.heard_silent (State.silent_of_entry he ha),
    State.conditionEnd_active (s := s.mapPress p fun pr => { pr with lastFrame := some s.tb }) he ha rfl he']
  exact congrArg (fun z => State.notice .alert 2 p.val (endedDetail .linkSilent e')
    (State.derivePattern z { s with presses, au })) hz

/-! ### Frames that are dropped (R70, R71) -/

/-- A frame that fails its check, in the two forms of R70, is counted by the link state. -/
theorem exec_feedBadCheck {typ : Byte} {len check : Half} {body : List Byte}
    (h : 1026 < len.toNat ∨ (body.length = len.toNat ∧ crc16 (typ :: (u16 body.length ++ body)) ≠ check)) :
    exec (.feedBadCheck p typ len body check) s = .next (s.badCheck p) := by
  have hfails : feedCheckFails typ len body check = true := by
    obtain hlen | ⟨hlen, hcheck⟩ := h
    · simp [feedCheckFails, Config.maxFeedBody, hlen]
    · rw [hlen] at hcheck
      simp [feedCheckFails, hlen, hcheck]
  exact congrArg Host.Outcome.next (if_pos hfails)

theorem exec_feedBadFrame {typ : Byte} {body : List Byte} (h : parseFeed typ body = none) :
    exec (.feedBadFrame p typ body) s = .next (s.onlineFrame p (State.protocol p .badFrame)) :=
  congrArg Host.Outcome.next (if_pos (by rw [h]; rfl))

/-- A malformed frame, or one that is not malformed after all, passes a press that is not ONLINE. -/
theorem exec_feedBadFrame_offline (h : s.presses[p].link ≠ .online) (typ : Byte) (body : List Byte) :
    exec (.feedBadFrame p typ body) s = .next s :=
  congrArg Host.Outcome.next ((congrArg (ite _ · s) (State.onlineFrame_offline h _)).trans (ite_self s))

theorem State.badCheck_disabled (h : s.presses[p].link = .disabled) : s.badCheck p = s := by
  simp only [State.badCheck, h]

theorem State.badCheck_awaiting (h : s.presses[p].link = .awaiting) : s.badCheck p = s.mapPress p Press.badCheck := by
  simp only [State.badCheck, h]

/-- On an ONLINE press PROTOCOL is raised too (R70). -/
theorem State.badCheck_online (h : s.presses[p].link = .online) :
    s.badCheck p = (s.mapPress p Press.badCheck).protocol p .badCheck := by simp only [State.badCheck, h]

/-- The count of bad checks is all that a bad check changes before its raise. -/
theorem State.badCheck_protocol (s : State) (p : Fin 16) :
    let u := (s.mapPress p Press.badCheck).protocol p .badCheck
    s.SameWork u ∧ u.presses[p].badChecks = min 65535 (s.presses[p].badChecks + 1) ∧
      u.presses[p].lastFrame = s.presses[p].lastFrame ∧ u.entry p .protocol = s.raisedEntry p .protocol 0 ∧
      ∀ q : Fin 16, q ≠ p → u.presses[q] = s.presses[q] := by
  have hcounted : s.SameWork (s.mapPress p Press.badCheck) :=
    State.mapPress_sameWork p _ s fun _ => ⟨rfl, rfl, rfl, rfl, rfl, rfl, rfl, rfl⟩
  have hraise := (s.mapPress p Press.badCheck).raise_holdMoves p .protocol 0
  obtain ⟨_, _, _, _, _, hself⟩ := hraise.self
  rw [State.mapPress_self] at hself
  exact ⟨hcounted.trans (State.raise_sameWork ..), (congrArg Press.badChecks hself :),
    (congrArg Press.lastFrame hself :), State.raise_entry ..,
    fun q hq => (hraise.other hq).trans (State.mapPress_other _ hq _)⟩

/-- Settles O52: frames are heard on ONLINE presses only, and each of the dropped ones does what R70 says. -/
theorem framesHeardOnlineOnly : Obligations.FramesHeardOnlineOnly := by
  intro p s pr heard
  refine ⟨fun w kindDetail tag k tags typ body hoff => ?_, fun hon hquiet => ?_, fun e e' hon he ha he' => ?_,
    fun typ body hbad hon => ?_, fun typ len check body hfails => ?_⟩
  · have hsame (f : State → State) : Host.Outcome.next (φ := Fault) (ρ := Refusal) (s.onlineFrame p f) = .next s :=
      congrArg _ (State.onlineFrame_offline hoff f)
    exact ⟨hsame _, hsame _, hsame _, hsame _, hsame _, hsame _, exec_feedBadFrame_offline hoff typ body⟩
  · exact congrArg Host.Outcome.next ((State.onlineFrame_online hon id).trans (State.heard_quiet hquiet))
  · exact congrArg Host.Outcome.next ((State.onlineFrame_online hon id).trans (State.heard_ends he ha he'))
  · obtain ⟨hwork, hlast, hentry, hother⟩ := s.heard_protocol p .badFrame
    have hexec := (exec_feedBadFrame hbad).trans (congrArg Host.Outcome.next (State.onlineFrame_online hon _))
    exact ⟨_, hexec, hlast, hentry, (hwork.press p).1, hwork.jobs, hwork.mu, hwork.ru, hwork.smm, hother⟩
  · rw [exec_feedBadCheck hfails]
    refine ⟨fun hoff => ?_, fun hwait => ?_, fun hon => ?_⟩
    · exact congrArg Host.Outcome.next (State.badCheck_disabled hoff)
    · exact congrArg Host.Outcome.next (State.badCheck_awaiting hwait)
    · rw [State.badCheck_online hon]
      obtain ⟨hwork, hcount, hlast, hentry, hother⟩ := s.badCheck_protocol p
      have hignored (h : (s.mapPress p Press.badCheck).au.modes[AlertKind.protocol.code].mode = .ignore) :
          (s.mapPress p Press.badCheck).protocol p .badCheck = s.mapPress p Press.badCheck :=
        congrArg Prod.fst (State.raise_dropped h _)
      exact ⟨fun h => congrArg Host.Outcome.next (hignored h), _, rfl, hcount, hlast, hentry, hwork.jobs, hwork.mu,
        hwork.ru, hwork.smm, hother⟩

end

end Sys2Proof.Machine
end

section
/-! WINDOW and TAKEN on an ONLINE press (R73, R97, R102): the press each leaves before its dispatch opportunity, and
what the opportunity may change behind it. -/

namespace Sys2Proof.Machine

/-! ### What an opportunity may change of its press (R93 to R96) -/

/-- `t` is `s` after an engine has looked for a sheet to send, with the entries `l` put at the tail of its path: of the
presses only what a dispatch and the feed condition touch on press `p`, no spool, no store and no meter. Outside RUN
there is no entry, and jobs, accounts, routing and link stay. -/
structure State.Fed (p : Fin 16) (l : List PathEntry) (s t : State) : Prop where
  few : l.length ≤ 1
  presses : ∃ path tagCounter lastChoice cond unbindDeadline tx out, path = s.presses[p].path ++ l ∧
    t.presses = s.presses.set p
      { s.presses[p] with path, tagCounter, lastChoice, cond, unbindDeadline, tx, out }
  smm : t.smm = s.smm
  store : t.store = s.store
  meters : t.mu.meters = s.mu.meters
  stopped : s.mlc.mode ≠ .run → l = [] ∧ t.jobs = s.jobs ∧ t.mu = s.mu ∧ t.ru = s.ru ∧ t.mlc = s.mlc

section
variable {s t : State} {p : Fin 16} {l : List PathEntry}

theorem State.Fed.refl (s : State) (p : Fin 16) : s.Fed p [] s where
  few := Nat.zero_le 1
  presses := ⟨s.presses[p].path, s.presses[p].tagCounter, s.presses[p].lastChoice, s.presses[p].cond,
    s.presses[p].unbindDeadline, s.presses[p].tx, s.presses[p].out, (List.append_nil _).symm,
    (Vector.set_getElem_self _).symm⟩
  smm := rfl
  store := rfl
  meters := rfl
  stopped _ := ⟨rfl, rfl, rfl, rfl, rfl⟩

/-- A change of the press's last choice, feed condition and unbind timer. -/
theorem State.Fed.mapPress (a : s.Fed p l t) (f : Press → Press)
    (hf : ∀ pr, ∃ lastChoice cond unbindDeadline, f pr = { pr with lastChoice, cond, unbindDeadline }) :
    s.Fed p l (t.mapPress p f) := by
  obtain ⟨path, tagCounter, _, _, _, tx, out, hpath, ha⟩ := a.presses
  obtain ⟨lastChoice, cond, unbindDeadline, hpr⟩ := hf t.presses[p]
  exact {
    few := a.few
    presses := ⟨path, tagCounter, lastChoice, cond, unbindDeadline, tx, out, hpath, by
      rw [State.mapPress_presses, hpr]
      simp only [ha, getElem_set_same, Vector.set_set]⟩
    smm := a.smm
    store := a.store
    meters := a.meters
    stopped := a.stopped }

theorem State.Fed.refresh (a : s.Fed p l t) : s.Fed p l (t.refresh p) := a.mapPress _ fun _ => ⟨_, _, _, rfl⟩

theorem State.noSheet_fed (s : State) (p : Fin 16) (c : Choice) : s.Fed p [] (s.noSheet p c) :=
  ((State.Fed.refl s p).mapPress (fun pr => { pr with lastChoice := some c }) fun _ => ⟨_, _, _, rfl⟩).refresh

theorem State.fundsRefused_fed (hrun : s.mlc.mode = .run) (p : Fin 16) (h : Handle) (a : Fin 256) (c : Nat) :
    s.Fed p [] (s.fundsRefused p h a c) := by
  have hno := s.noSheet_fed p .fundsWait
  unfold State.fundsRefused
  dsimp only
  split
  · exact ⟨hno.few, hno.presses, hno.smm, hno.store, hno.meters, fun h => absurd hrun h⟩
  · exact hno

theorem State.dispatch_fed (hrun : s.mlc.mode = .run) (p : Fin 16) (h : Handle) (j : Job) (fromList : Bool)
    (x : CopySheet) (r : SheetRecord) (a : Fin 256) (c : Nat) :
    ∃ e, s.Fed p [e] ((s.reserve a c).dispatch p h j fromList x r c) :=
  ⟨_, Nat.le_refl 1, ⟨_, _, _, _, _, _, _, rfl, State.dispatch_presses (s.reserve a c) p h j fromList x r c⟩, rfl, rfl,
    rfl, fun h => absurd hrun h⟩

theorem State.trySheet_fed (hrun : s.mlc.mode = .run) (p : Fin 16) (h : Handle) (j : Job) (fromList : Bool)
    (x : CopySheet) : ∃ l, s.Fed p l (s.trySheet p h j fromList x) := by
  unfold State.trySheet
  split
  · exact ⟨[], s.noSheet_fed p _⟩
  · next r _ =>
    dsimp only
    split
    · obtain ⟨e, he⟩ := State.dispatch_fed hrun p h j fromList x r j.account (s.sheetCharge j r)
      exact ⟨[e], he.refresh⟩
    · exact ⟨[], State.fundsRefused_fed hrun ..⟩

/-- A dispatch opportunity appends at most one entry, and outside RUN it only derives the feed condition again. -/
theorem State.opportunity_fed (s : State) (p : Fin 16) : ∃ l, s.Fed p l (s.opportunity p) := by
  unfold State.opportunity
  split
  · exact ⟨[], .refl s p⟩
  · split
    · exact ⟨[], (State.Fed.refl s p).refresh⟩
    · split
      · next hmay =>
        have hrun : s.mlc.mode = .run := by
          simp only [Press.mayDispatch, Bool.and_eq_true, decide_eq_true_eq] at hmay
          obtain ⟨⟨⟨-, hrun⟩, -⟩, -⟩ := hmay
          exact hrun
        split
        · exact ⟨[], s.noSheet_fed p _⟩
        · exact State.trySheet_fed hrun ..
        · exact State.trySheet_fed hrun ..
      · exact ⟨[], (State.Fed.refl s p).refresh⟩

/-! ### The press that a frame leaves before its opportunity -/

/-- `t` is `s` but for press `p`, which is `pr`, and for what a frame heard does at the alert unit, the zones and the
notices. -/
structure State.Hears (p : Fin 16) (pr : Press) (s t : State) : Prop where
  presses : t.presses = s.presses.set p pr
  jobs : t.jobs = s.jobs
  smm : t.smm = s.smm
  ru : t.ru = s.ru
  mu : t.mu = s.mu
  store : t.store = s.store
  mode : t.mlc.mode = s.mlc.mode

variable {pr : Press}

theorem State.heard_hears (s : State) (p : Fin 16) :
    s.Hears p { s.presses[p] with lastFrame := some s.tb } (s.heard p) := by
  obtain ⟨hpresses, hstore, -, -⟩ := s.heard_leaves p
  have w := State.heard_sameWork p s
  exact ⟨hpresses, w.jobs, w.smm, w.ru, w.mu, hstore, w.mode⟩

theorem State.Hears.self (a : s.Hears p pr t) : t.presses[p] = pr := by simp only [a.presses, getElem_set_same]

theorem State.Hears.mapPress (a : s.Hears p pr t) (f : Press → Press) : s.Hears p (f pr) (t.mapPress p f) where
  presses := by rw [State.mapPress_presses, a.self, a.presses, Vector.set_set]
  jobs := a.jobs
  smm := a.smm
  ru := a.ru
  mu := a.mu
  store := a.store
  mode := a.mode

theorem State.Hears.windowNotice (a : s.Hears p pr t) (old new : Nat) : s.Hears p pr (t.windowNotice p old new) := by
  unfold State.windowNotice
  split
  · exact a
  · exact { a with mode := (State.notice_sameWork ..).mode.trans a.mode }

/-- The press after the opportunity: its path with the entries appended, and what no opportunity touches as the frame
left it. -/
theorem State.Hears.fed_press {u : State} (a : s.Hears p pr t) (b : t.Fed p l u) :
    u.presses[p].path = pr.path ++ l ∧ u.presses[p].lastFrame = pr.lastFrame ∧ u.presses[p].applied = pr.applied ∧
      u.presses[p].reported = pr.reported ∧ u.presses[p].watch = pr.watch := by
  obtain ⟨_, _, _, _, _, _, _, rfl, hu⟩ := b.presses
  simp only [hu, getElem_set_same, a.self, and_self]

/-- What a frame and the opportunity behind it leave of the rest of the part. -/
theorem State.Hears.fed_rest {u : State} (a : s.Hears p pr t) (b : t.Fed p l u) :
    u.smm = s.smm ∧ u.mu.meters = s.mu.meters ∧ (∀ q : Fin 16, q ≠ p → u.presses[q] = s.presses[q]) ∧
      (s.mlc.mode ≠ .run → u.jobs = s.jobs ∧ u.mu = s.mu ∧ u.ru = s.ru ∧ u.mlc.mode = s.mlc.mode) := by
  obtain ⟨_, _, _, _, _, _, _, -, hu⟩ := b.presses
  refine ⟨b.smm.trans a.smm, b.meters.trans (congrArg Mu.meters a.mu), fun q hq => ?_, fun hrun => ?_⟩
  · simp only [hu, a.presses, getElem_set_other _ hq]
  · obtain ⟨-, hjobs, hmu, hru, hmlc⟩ := b.stopped (a.mode ▸ hrun)
    exact ⟨hjobs.trans a.jobs, hmu.trans a.mu, hru.trans a.ru, (congrArg Mlc.mode hmlc).trans a.mode⟩

/-! ### WINDOW (R73) -/

/-- The state in which a WINDOW is recorded and noticed, before the feed condition follows it. -/
def State.announced (p : Fin 16) (w : Byte) (s : State) : State :=
  (s.mapPress p (Press.announce w)).windowNotice p s.presses[p].window (clampWindow w.toNat)

theorem State.takeWindow_fed (s : State) (p : Fin 16) (w : Byte) :
    ∃ l, (s.announced p w).Fed p l (s.takeWindow p w) := by
  unfold State.takeWindow
  dsimp only
  split
  · exact State.opportunity_fed (s.announced p w) p
  · exact ⟨[], (State.Fed.refl (s.announced p w) p).refresh⟩

/-- On a press that is not silent the link holds the WINDOW notice, if there is one, and nothing else new. -/
theorem State.announced_mlc (h : s.silent p = false) (w : Byte) :
    ((s.heard p).announced p w).mlc =
      if s.presses[p].applied.getD 0 = clampWindow w.toNat then s.mlc
      else (State.notice .press 2 p.val (u8 (s.presses[p].applied.getD 0) ++ u8 (clampWindow w.toNat)) s).mlc := by
  have hwindow : (s.heard p).presses[p].window = s.presses[p].applied.getD 0 := by
    rw [(s.heard_hears p).self]; rfl
  rw [State.announced, hwindow, State.heard_quiet h, State.windowNotice]
  split <;> rfl

/-! ### TAKEN (R97) -/

/-- The tag and the deadline of a watch: all of it but what the alert unit answered. -/
def Watch.aim (w : Watch) : Half × Time := (w.tag, w.deadline)

/-- A watch that stays the same keeps the alert unit's answer; its tag and deadline are in any case those of R102. -/
theorem Press.rewatch_aim (pr : Press) :
    pr.rewatch.watch.map Watch.aim = (watchOf (pr.runStall.getD 0) pr.path).map Watch.aim := by
  unfold Press.rewatch
  dsimp only
  rw [Option.map_map]
  congr 1
  funext w
  cases pr.watch with
  | none => rfl
  | some o =>
    dsimp only [Function.comp]
    split
    · next h => exact Prod.ext h.1 h.2
    · rfl

/-- The stall watch follows the oldest entry with a time taken (R102). -/
theorem watchOf_aim (stall : Nat) (path : List PathEntry) :
    (watchOf stall path).map Watch.aim =
      ((path.filter fun e => e.takenAt.isSome).head?).bind fun e => e.takenAt.map fun t => (e.tag, t + secs stall) := by
  simp only [watchOf, List.head?_filter, Option.map_bind]
  congr 1
  funext e
  exact Option.map_map ..

/-- A press after a TAKEN of a tag in its path, before its opportunity. -/
def Press.took (tag : Half) (now : Time) (pr : Press) : Press := (pr.mapEntry tag (PathEntry.take now)).rewatch

theorem Press.hasTag_iff (tag : Half) (pr : Press) : pr.hasTag tag = true ↔ ∃ e ∈ pr.path, e.tag = tag := by
  simp [Press.hasTag]

theorem State.takeTaken_known {tag : Half} (h : ∃ e ∈ s.presses[p].path, e.tag = tag) :
    s.takeTaken p tag = (s.mapPress p (Press.took tag s.tb)).opportunity p :=
  if_pos ((Press.hasTag_iff tag _).mpr h)

theorem State.takeTaken_unknown {tag : Half} (h : ∀ e ∈ s.presses[p].path, e.tag ≠ tag) :
    s.takeTaken p tag = s.protocol p .unknownTag :=
  if_neg fun ht => by
    obtain ⟨e, he, htag⟩ := (Press.hasTag_iff tag _).mp ht
    exact h e he htag

/-- Settles O53: each frame is heard, changes its press, and is followed by an opportunity, or raises PROTOCOL. -/
theorem windowAndTakenMovePath : Obligations.WindowAndTakenMovePath := by
  intro p s hon pr still
  refine ⟨fun w => ?_, fun tag htag => ?_, fun tag htag => ?_⟩
  · have a := ((s.heard_hears p).mapPress (Press.announce w)).windowNotice (s.heard p).presses[p].window
      (clampWindow w.toNat)
    obtain ⟨l, b⟩ := (s.heard p).takeWindow_fed p w
    obtain ⟨hpath, hlast, happlied, hreported, -⟩ := a.fed_press b
    refine ⟨_, l, congrArg Host.Outcome.next (State.onlineFrame_online hon _), ⟨hlast, a.fed_rest b⟩,
      b.store.trans a.store, happlied, hreported, hpath, b.few, fun hrun => (b.stopped (a.mode ▸ hrun)).1,
      fun hquiet hrun => ?_⟩
    obtain ⟨-, -, -, -, hmlc⟩ := b.stopped (a.mode ▸ hrun)
    exact hmlc.trans (State.announced_mlc hquiet w)
  · have htb : (s.heard p).tb = s.tb := (State.heard_sameWork p s).tb
    have hexec := State.takeTaken_known (s := s.heard p) (p := p) (by rw [(s.heard_hears p).self]; exact htag)
    rw [htb] at hexec
    have a := (s.heard_hears p).mapPress (Press.took tag s.tb)
    obtain ⟨l, b⟩ := State.opportunity_fed ((s.heard p).mapPress p (Press.took tag s.tb)) p
    obtain ⟨hpath, hlast, -, -, hwatch⟩ := a.fed_press b
    exact ⟨_, l, congrArg Host.Outcome.next ((State.onlineFrame_online hon _).trans hexec), ⟨hlast, a.fed_rest b⟩,
      b.store.trans a.store, hpath, b.few, fun hrun => (b.stopped (a.mode ▸ hrun)).1,
      (congrArg (Option.map Watch.aim) hwatch).trans ((Press.rewatch_aim _).trans (watchOf_aim ..))⟩
  · obtain ⟨hwork, hlast, hentry, hother⟩ := s.heard_protocol p .unknownTag
    have hexec := State.takeTaken_unknown (s := s.heard p) (p := p) (by rw [(s.heard_hears p).self]; exact htag)
    exact ⟨_, congrArg Host.Outcome.next ((State.onlineFrame_online hon _).trans hexec),
      ⟨hlast, hwork.smm, congrArg Mu.meters hwork.mu, hother, fun _ => ⟨hwork.jobs, hwork.mu, hwork.ru, hwork.mode⟩⟩,
      hentry, (hwork.press p).1, hwork.mu, hwork.jobs⟩

end

end Sys2Proof.Machine
end

section
/-! The link's deadlines (R67, R78, R102): the probe timer, the silence deadline and the stall deadline, before
their time and when they are reached. -/

namespace Sys2Proof.Machine

section
variable {s : State} {p : Fin 16} {t : Time}

/-! ### The probe timer (R67) -/

/-- A PROBE goes out, is counted and starts its timer; nothing else moves. -/
theorem State.probe_eq (s : State) (p : Fin 16) :
    s.probe p = s.mapPress p fun pr =>
      { pr with
        out := pr.out ++ [.probe], probes := min 255 (pr.probes + 1),
        probeDeadline := some (s.tb + ms pr.profile.linkTimeout) } := by
  simp only [State.probe, State.send, State.mapPress, getElem_set_same, Vector.set_set]
  rfl

theorem State.probeDue_eq (hl : s.presses[p].link = .awaiting) (ht : s.presses[p].probeDeadline = some t) :
    s.probeDue p = reached s.tb t := by simp only [State.probeDue, State.due, hl, ht, decide_true, Bool.true_and]

theorem exec_probeTimerExpiry_early (hl : s.presses[p].link = .awaiting) (ht : s.presses[p].probeDeadline = some t)
    (hr : reached s.tb t = false) : exec (.probeTimerExpiry p) s = .next s :=
  congrArg Host.Outcome.next (if_neg (by rw [State.probeDue_eq hl ht, hr]; exact Bool.false_ne_true))

theorem exec_probeTimerExpiry_reached (hl : s.presses[p].link = .awaiting) (ht : s.presses[p].probeDeadline = some t)
    (hr : reached s.tb t = true) : exec (.probeTimerExpiry p) s = .next (s.probe p) :=
  congrArg Host.Outcome.next (if_pos (by rw [State.probeDue_eq hl ht, hr]))

/-! ### The silence deadline (R78) -/

theorem State.silenceDue_eq (hl : s.presses[p].link = .online) (ht : s.presses[p].lastFrame = some t)
    (hq : s.silent p = false) :
    s.silenceDue p = reached s.tb (t + ms s.presses[p].profile.linkTimeout) := by
  simp only [State.silenceDue, State.due, Press.silenceAt, hl, ht, hq, Option.map_some, decide_true, Bool.true_and,
    Bool.not_false, Bool.and_true]

theorem exec_silenceDeadline_early (hl : s.presses[p].link = .online) (ht : s.presses[p].lastFrame = some t)
    (hq : s.silent p = false) (hr : reached s.tb (t + ms s.presses[p].profile.linkTimeout) = false) :
    exec (.silenceDeadline p) s = .next s :=
  congrArg Host.Outcome.next (if_neg (by rw [State.silenceDue_eq hl ht hq, hr]; exact Bool.false_ne_true))

theorem exec_silenceDeadline_reached (hl : s.presses[p].link = .online) (ht : s.presses[p].lastFrame = some t)
    (hq : s.silent p = false) (hr : reached s.tb (t + ms s.presses[p].profile.linkTimeout) = true) :
    exec (.silenceDeadline p) s = .next (s.alert p .linkSilent 0) :=
  congrArg Host.Outcome.next (if_pos (by rw [State.silenceDue_eq hl ht hq, hr]))

/-! ### The stall deadline (R102) -/

theorem State.stallDue_eq {w : Watch} (hw : s.presses[p].watch = some w) (hs : s.presses[p].stalledTag = none)
    (hd : w.dropped = false) : s.stallDue p = if reached s.tb w.deadline then some w.tag else none := by
  simp only [State.stallDue, hw, hs, hd, Option.isNone_none, Bool.not_false, Bool.and_true]

theorem exec_stallDeadline_early {w : Watch} (hw : s.presses[p].watch = some w) (hs : s.presses[p].stalledTag = none)
    (hd : w.dropped = false) (hr : reached s.tb w.deadline = false) : exec (.stallDeadline p) s = .next s := by
  change execStallDeadline p s = _
  simp only [execStallDeadline, State.stallDue_eq hw hs hd, hr, Bool.false_eq_true, if_false]

theorem exec_stallDeadline_reached {w : Watch} (hw : s.presses[p].watch = some w)
    (hs : s.presses[p].stalledTag = none) (hd : w.dropped = false) (hr : reached s.tb w.deadline = true) :
    exec (.stallDeadline p) s = .next (s.raiseStall p w.tag) := by
  change execStallDeadline p s = _
  simp only [execStallDeadline, State.stallDue_eq hw hs hd, hr, if_true]

/-- A stall raise leaves the entry of a STALL raise, and the other presses. -/
theorem State.raiseStall_leaves (s : State) (p : Fin 16) (tag : Half) :
    (s.raiseStall p tag).entry p .stall = s.raisedEntry p .stall 0 ∧
      ∀ q : Fin 16, q ≠ p → (s.raiseStall p tag).presses[q] = s.presses[q] := by
  have hraise := s.raise_holdMoves p .stall 0
  unfold State.raiseStall
  dsimp only
  split <;> exact ⟨State.raise_entry .., fun q hq => (State.mapPress_other _ hq _).trans (hraise.other hq)⟩

/-- The stalled tag is recorded unless the raise was dropped (R102). -/
theorem State.raiseStall_stalledTag (s : State) (p : Fin 16) (tag : Half) :
    (s.raiseStall p tag).presses[p].stalledTag =
      if s.au.modes[AlertKind.stall.code].mode = .ignore then s.presses[p].stalledTag else some tag := by
  unfold State.raiseStall
  dsimp only
  split
  · next h =>
    have hm := Decidable.not_not.mp fun hm => State.raise_answered (p := p) hm 0 h
    rw [State.mapPress_self, State.raise_dropped hm, if_pos hm]
  · next h =>
    have hm (hm : s.au.modes[AlertKind.stall.code].mode = .ignore) : False :=
      h (congrArg Prod.snd (State.raise_dropped (p := p) hm 0))
    rw [State.mapPress_self, if_neg hm]

/-! ### The three of them -/

/-- What a deadline that raises leaves alone. -/
theorem State.SameWork.still {u : State} (w : s.SameWork u)
    (hother : ∀ q : Fin 16, q ≠ p → u.presses[q] = s.presses[q]) :
    u.presses[p].path = s.presses[p].path ∧ u.presses[p].bound = s.presses[p].bound ∧ u.jobs = s.jobs ∧ u.mu = s.mu ∧
      u.ru = s.ru ∧ u.smm = s.smm ∧ u.tb = s.tb ∧ ∀ q : Fin 16, q ≠ p → u.presses[q] = s.presses[q] :=
  ⟨(w.press p).1, (w.press p).2.1, w.jobs, w.mu, w.ru, w.smm, w.tb, hother⟩

/-- Settles O56: each deadline is compared with the time, and acts through one PROBE or one raise. -/
theorem linkTimersExpire : Obligations.LinkTimersExpire := by
  intro p t s pr still
  refine ⟨fun hl ht => ⟨exec_probeTimerExpiry_early hl ht, fun hr => ?_⟩,
    fun hl ht hq => ⟨exec_silenceDeadline_early hl ht hq, fun hr => ?_⟩,
    fun w hw hs hd => ⟨exec_stallDeadline_early hw hs hd, fun hr => ?_⟩⟩
  · rw [exec_probeTimerExpiry_reached hl ht hr, State.probe_eq]
    rfl
  · exact ⟨_, exec_silenceDeadline_reached hl ht hq hr, State.raise_entry ..,
      (State.raise_sameWork ..).still fun q hq => (s.raise_holdMoves p .linkSilent 0).other hq⟩
  · obtain ⟨hentry, hother⟩ := s.raiseStall_leaves p w.tag
    refine ⟨_, exec_stallDeadline_reached hw hs hd hr, hentry, (State.raiseStall_sameWork ..).still hother, ?_⟩
    rw [State.raiseStall_stalledTag, show s.presses[p].stalledTag = none from hs]
    rfl

end

end Sys2Proof.Machine
end

section
/-! PRESS_QUERY, PRESS_ENABLE and PRESS_DISABLE (R66, R68, R69, R183): what each answers by the link state, the path and
the bound job of its press, and the state it leaves. -/

namespace Sys2Proof.Machine

/-! ### Bodies (R211) -/

/-- The first byte of a body that names a press. -/
theorem toFin?_pressByte (p : Fin 16) : toFin? 16 (BitVec.ofNat 8 p.val : Byte).toNat = some p := by
  rw [byte_index 16 p (by omega), toFin?_val]

theorem pressRequest_byte (p : Fin 16) (own : Fin 16 → State → Answer) (s : State) :
    pressRequest (u8 p.val) own s = own p s := by simp only [u8, pressRequest, toFin?_pressByte]

/-! ### PRESS_QUERY (R69) -/

/-- Settles O38: the record in the order of its fields. -/
theorem pressQueryReports : Obligations.PressQueryReports := by
  intro tag p s ht pr caps
  change Host.Outcome.next (takeRequest 0x2B tag false (pressRequest (u8 p.val) pressQuery) s) = _
  rw [takeRequest_taken _ _ _ _ _ ht, pressRequest_byte]
  have hentry : PathEntry.bytes = fun e : PathEntry => u16 e.tag.toNat ++ u16 e.pair.copy ++ u16 e.pair.sheet ++
      u8 e.state.code ++ u24 e.charge ++ timeBytes e.dispatched ++ opt timeBytes e.takenAt := by
    funext e
    simp only [PathEntry.bytes, CopySheet.bytes, List.append_assoc]
  simp only [pressQuery, accept, Press.record, Profile.bytes, Press.reportedBytes, Press.linkBytes,
    Press.dispatchBytes, hentry, List.append_assoc]
  rfl

section
variable {s : State} {p : Fin 16}

/-! ### PRESS_ENABLE (R66) -/

theorem State.enable_eq (s : State) (p : Fin 16) :
    s.enable p = s.mapPress p fun pr =>
      { pr with
        link := .awaiting, out := pr.out ++ [.probe], probes := min 255 (pr.probes + 1),
        probeDeadline := some (s.tb + ms pr.profile.linkTimeout) } := by
  rw [State.enable, State.probe_eq]
  simp only [State.mapPress, getElem_set_same, Vector.set_set]

theorem pressEnable_offline (h : s.presses[p].link ≠ .online) :
    pressEnable p s = accept (u8 1 ++ u8 (min 255 (s.presses[p].probes + 1))) (s.enable p) := by
  simp only [pressEnable, if_neg h, State.enable_eq, State.mapPress_self, LinkState.code]

theorem pressEnable_online (h : s.presses[p].link = .online) : pressEnable p s = refuse .state s := if_pos h

/-! ### PRESS_DISABLE (R68, R183) -/

theorem pressDisable_disabled (h : s.presses[p].link = .disabled) : pressDisable p s = accept [0] s := if_pos h

theorem pressDisable_path (h : s.presses[p].link ≠ .disabled) (hp : s.presses[p].path ≠ []) :
    pressDisable p s = refuse .state s := by
  simp only [pressDisable, if_neg h, List.isEmpty_eq_false_iff.mpr hp, Bool.not_false, if_true]

theorem pressDisable_unbound (h : s.presses[p].link ≠ .disabled) (hp : s.presses[p].path = [])
    (hb : s.presses[p].bound = none) : pressDisable p s = accept [0] (s.disable p) := by
  simp only [pressDisable, if_neg h, hp, hb, List.isEmpty_nil, Bool.not_true, Bool.false_eq_true, if_false,
    Option.bind_none, opt]

/-- A press with a job gives it back where its queue has room, and is refused where it has none. -/
theorem pressDisable_bound {h : Handle} {j : Job} (hl : s.presses[p].link ≠ .disabled) (hp : s.presses[p].path = [])
    (hb : s.presses[p].bound = some h) (hj : s.jobOf h = some j) :
    pressDisable p s =
      if s.roomFor j then accept (1 :: h.bytes) ((s.returnJob h j).disable p) else refuse .full s := by
  simp only [pressDisable, if_neg hl, hp, hb, hj, List.isEmpty_nil, Bool.not_true, Bool.false_eq_true, if_false,
    Option.bind_some, Option.map_some, opt]

/-- The state that a press leaves as it is disabled (R68): its record, its alert table emptied without notices (R183),
its zone's pattern derived again, and its mark where it was ONLINE. -/
theorem State.disable_eq (s : State) (p : Fin 16) :
    let au : Au := { s.au with tables := s.au.tables.set p emptyTable }
    let z := s.presses[p].profile.zone
    s.disable p =
      { s with
        presses := s.presses.set p s.presses[p].disabled
        au
        zones := s.zones.set z ((s.zones[z]).derive s.tb (patternOf (State.zoneEntries { s with au } z)))
        store := if s.presses[p].link = .online then
            { s.store with marks := s.store.marks.set p { s.store.marks[p] with pending := true } }
          else s.store } := by
  intro au z
  unfold State.disable
  by_cases h : s.presses[p].link = .online
  · simp only [h, decide_true, if_true]; rfl
  · simp only [h, decide_false, Bool.false_eq_true, if_false]; rfl

/-- The mark of a press that was ONLINE is set, and every other mark stays (R148). -/
theorem State.disable_marks (s : State) (p q : Fin 16) :
    (s.disable p).store.marks[q] =
      if q = p ∧ s.presses[p].link = .online then { s.store.marks[q] with pending := true } else s.store.marks[q] := by
  rw [State.disable_eq]
  dsimp only
  by_cases h : s.presses[p].link = .online
  · by_cases hq : q = p
    · subst hq; simp only [h, if_true, getElem_set_same, and_self]
    · simp only [h, if_true, getElem_set_other _ hq, hq, false_and, if_false]
  · simp only [h, and_false, if_false]

/-- Settles O36: each request is taken and answers by the link state, the path and the bound job. -/
theorem pressesEnabledAndDisabled : Obligations.PressesEnabledAndDisabled := by
  intro tag p s ht pr off request
  have henable : exec (.pressEnable tag (u8 p.val)) s =
      .next ((pressEnable p s).state.reply 0x29 tag (pressEnable p s).status (pressEnable p s).body) := by
    change Host.Outcome.next (takeRequest 0x29 tag false (pressRequest (u8 p.val) pressEnable) s) = _
    rw [takeRequest_taken _ _ _ _ _ ht, pressRequest_byte]
  have hdisable : exec request s =
      .next ((pressDisable p s).state.reply 0x2A tag (pressDisable p s).status (pressDisable p s).body) := by
    change Host.Outcome.next (takeRequest 0x2A tag false (pressRequest (u8 p.val) pressDisable) s) = _
    rw [takeRequest_taken _ _ _ _ _ ht, pressRequest_byte]
  refine ⟨fun hl => ?_, fun hl => ?_, fun hl => ?_, fun hl hp => ?_, fun hl hp hb => ?_,
    fun h j hl hp hb hj => ⟨fun hfull => ?_, fun hroom => ?_⟩⟩
  · rw [henable, pressEnable_offline hl, State.enable_eq]; rfl
  · rw [henable, pressEnable_online hl]; rfl
  · rw [hdisable, pressDisable_disabled hl]; rfl
  · rw [hdisable, pressDisable_path hl hp]; rfl
  · rw [hdisable, pressDisable_unbound hl hp hb, State.disable_eq]; rfl
  · have hno : s.roomFor j = false := decide_eq_false (by omega)
    rw [hdisable, pressDisable_bound hl hp hb hj, hno]; rfl
  · have hyes : s.roomFor j = true := decide_eq_true hroom
    rw [hdisable, pressDisable_bound hl hp hb hj, hyes]
    refine ⟨(s.returnJob h j).disable p, rfl, ?_⟩
    have hmarks := (s.returnJob h j).disable_marks p
    rw [State.disable_eq] at hmarks ⊢
    exact ⟨State.mapJob_slot hj _, rfl, rfl, rfl, hmarks, rfl, rfl, rfl, rfl⟩

end

end Sys2Proof.Machine
end

section
/-! PRESS_SET (R62 to R64, R189): the profile read back from its body, and the state that an accepted one leaves on a
DISABLED press and on a READY one. -/

namespace Sys2Proof.Machine

/-! ### The body (R63) -/

/-- The ranges of R63 check 5 and the count of its check 2. -/
structure Profile.InRange (f : Profile) : Prop where
  some_class : 1 ≤ f.classes.length
  four_classes : f.classes.length ≤ 4
  nodup : f.classes.Nodup
  grades : f.caps.grades ≠ 0
  link_min : 100 ≤ f.linkTimeout
  link_max : f.linkTimeout ≤ 10000
  stall_min : 1 ≤ f.stallTime
  stall_max : f.stallTime ≤ 120
  unbind_max : f.unbindTime ≤ 3600
  checkpoint_min : 1 ≤ f.checkpoint
  checkpoint_max : f.checkpoint ≤ 1000

theorem classesOf_map_val (l : List (Fin 8)) : classesOf (l.map Fin.val) = some l := by
  induction l with
  | nil => rfl
  | cons c l ih => simp only [List.map_cons, classesOf, toFin?_val, ih]

/-- The bytes of the served classes. -/
def classBytes (l : List (Fin 8)) : List Byte := l.flatMap fun c => u8 c.val

/-- They read back as the class numbers. -/
theorem classBytes_toNat (l : List (Fin 8)) : (classBytes l).map BitVec.toNat = l.map Fin.val := by
  induction l with
  | nil => rfl
  | cons c l ih =>
    have hcons : classBytes (c :: l) = BitVec.ofNat 8 c.val :: classBytes l := rfl
    rw [hcons, List.map_cons, ih, byte_index 8 c (by omega), List.map_cons]

theorem classBytes_length (l : List (Fin 8)) : (classBytes l).length = l.length := by
  rw [← List.length_map (f := BitVec.toNat), classBytes_toNat, List.length_map]

/-- The bytes of a profile: the count of its classes, the classes, and eleven bytes of its other fields. -/
theorem Profile.bytes_eq (f : Profile) :
    f.bytes = BitVec.ofNat 8 f.classes.length :: (classBytes f.classes ++
      [if f.caps.color then 1 else 0, if f.caps.duplex then 1 else 0, f.caps.grades, BitVec.ofNat 8 f.zone.val,
       BitVec.ofNat 8 (f.linkTimeout / 256), BitVec.ofNat 8 f.linkTimeout, BitVec.ofNat 8 f.stallTime,
       BitVec.ofNat 8 (f.unbindTime / 256), BitVec.ofNat 8 f.unbindTime,
       BitVec.ofNat 8 (f.checkpoint / 256), BitVec.ofNat 8 f.checkpoint]) := by
  rw [Profile.bytes, Caps.bytes, (yes_flag f.caps.color).1, (yes_flag f.caps.duplex).1]
  simp only [list8, List.append_assoc]
  rfl

/-- What a host sends for a profile is read as its fields. -/
theorem pressSetBody_bytes (p : Fin 16) {f : Profile} (h : f.InRange) :
    pressSetBody (u8 p.val ++ f.bytes) =
      some { press := p.val, classes := f.classes.map Fin.val, color := f.caps.color, duplex := f.caps.duplex,
             grades := f.caps.grades, zone := f.zone.val, linkTimeout := f.linkTimeout, stallTime := f.stallTime,
             unbindTime := f.unbindTime, checkpoint := f.checkpoint } := by
  have hcount : ¬ (f.classes.length = 0 ∨ 4 < f.classes.length) := by
    have := h.some_class
    have := h.four_classes
    omega
  have hp : (BitVec.ofNat 8 p.val : Byte).toNat = p.val := byte_index 16 p (by omega)
  have hz : (BitVec.ofNat 8 f.zone.val : Byte).toNat = f.zone.val := byte_index 4 f.zone (by omega)
  have hn : (BitVec.ofNat 8 f.classes.length : Byte).toNat = f.classes.length := by
    have := h.four_classes; rw [byte_toNat]; omega
  have hs : (BitVec.ofNat 8 f.stallTime : Byte).toNat = f.stallTime := by
    have := h.stall_max; rw [byte_toNat]; omega
  have hlink := be16_u16 f.linkTimeout (by have := h.link_max; omega)
  have hunbind := be16_u16 f.unbindTime (by have := h.unbind_max; omega)
  have hcheck := be16_u16 f.checkpoint (by have := h.checkpoint_max; omega)
  have hlen := classBytes_length f.classes
  simp only [f.bytes_eq, u8, List.cons_append, List.nil_append, pressSetBody, hp, hz, hn, hs, if_neg hcount,
    List.take_left' hlen, List.drop_left' hlen, classBytes_toNat, (yes_flag _).2, hlink, hunbind, hcheck]

/-- Fields in range are a profile that may be written (R63 check 5). -/
theorem PressSetBody.profile_some (p : Nat) {f : Profile} (h : f.InRange) :
    PressSetBody.profile
      { press := p, classes := f.classes.map Fin.val, color := f.caps.color, duplex := f.caps.duplex,
        grades := f.caps.grades, zone := f.zone.val, linkTimeout := f.linkTimeout, stallTime := f.stallTime,
        unbindTime := f.unbindTime, checkpoint := f.checkpoint } = some f := by
  obtain ⟨-, -, hnodup, hgrades, hlink, hlink', hstall, hstall', hunbind, hcheck, hcheck'⟩ := h
  simp only [PressSetBody.profile, classesOf_map_val, toFin?_val]
  exact if_pos ⟨hnodup, hgrades, hlink, hlink', hstall, hstall', hunbind, hcheck, hcheck'⟩

section
variable {s : State} {p : Fin 16} {f : Profile}

/-- A PRESS_SET of a profile in range writes it where the press may be set, and is refused STATE elsewhere (R63). -/
theorem pressSet_bytes (h : f.InRange) (s : State) (p : Fin 16) :
    pressSet (u8 p.val ++ f.bytes) s =
      if s.presses[p].settable then accept f.bytes (s.setProfile p f) else refuse .state s := by
  simp only [pressSet, pressSetBody_bytes p h, toFin?_val, PressSetBody.profile_some p.val h]
  cases s.presses[p].settable <;> rfl

/-! ### The parts of R64 -/

/-- The silence found at once is a raise or nothing. -/
theorem State.checkSilence_sameWork (s : State) (p : Fin 16) : s.SameWork (s.checkSilence p) := by
  unfold State.checkSilence
  split
  · split
    · exact State.raise_sameWork p .linkSilent 0 s
    · exact .refl s
  · exact .refl s

/-- Nothing, where no deadline is reached that is not known already. -/
theorem State.checkSilence_quiet
    (h : ∀ t, s.presses[p].silenceAt = some t → reached s.tb t = true → s.silent p = true) : s.checkSilence p = s := by
  unfold State.checkSilence
  split
  · next t ht =>
    refine if_neg fun hdue => ?_
    simp only [Bool.and_eq_true, Bool.not_eq_true'] at hdue
    obtain ⟨⟨-, hr⟩, hno⟩ := hdue
    exact absurd (h t ht hr) (by rw [hno]; exact Bool.false_ne_true)
  · rfl

/-- A press in another zone, which may be its own. -/
def Press.inZone (z : Fin 4) (pr : Press) : Press := { pr with profile := { pr.profile with zone := z } }

/-- The pattern of one zone derived again (R187). -/
theorem State.derivePattern_get (s : State) (z w : Fin 4) :
    (s.derivePattern z).zones[w] =
      if z = w then (s.zones[z]).derive s.tb (patternOf (s.zoneEntries z)) else s.zones[w] := State.mapZone_get ..

/-- The move of a press to a zone: its record, and the patterns of both zones where they are two (R64 step 3, R189). -/
theorem State.moveZone_eq (s : State) (p : Fin 16) (z : Fin 4) :
    ∃ presses zones, s.moveZone p z = { s with presses, zones } ∧
      presses = s.presses.set p (s.presses[p].inZone z) ∧
      ∀ w : Fin 4,
        if s.presses[p].profile.zone ≠ z ∧ (w = s.presses[p].profile.zone ∨ w = z) then
          zones[w] = (s.zones[w]).derive s.tb (patternOf (State.zoneEntries { s with presses } w))
        else zones[w] = s.zones[w] := by
  by_cases h : s.presses[p].profile.zone = z
  · refine ⟨s.presses, s.zones, if_pos h, ?_, fun w => ?_⟩
    · rw [← h]
      exact (Vector.set_getElem_self _).symm
    · rw [if_neg fun hw => hw.1 h]
  · let v := s.mapPress p (Press.inZone z)
    refine ⟨_, ((v.derivePattern s.presses[p].profile.zone).derivePattern z).zones, if_neg h, rfl, fun w => ?_⟩
    rw [State.derivePattern_get]
    by_cases hz : z = w
    · subst hz
      rw [if_pos rfl, if_pos ⟨h, .inr rfl⟩, State.derivePattern_get, if_neg h]
      rfl
    · rw [if_neg hz, State.derivePattern_get]
      by_cases ho : s.presses[p].profile.zone = w
      · rw [if_pos ho, if_pos ⟨h, .inl ho.symm⟩, ho]
        rfl
      · rw [if_neg ho, if_neg fun hw => hw.2.elim (fun e => ho e.symm) fun e => hz e.symm]
        rfl

/-- A binding event leaves the profile and the capabilities of its press. -/
theorem State.bindEvent_press (s : State) (p : Fin 16) :
    (s.bindEvent p).presses[p].profile = s.presses[p].profile ∧
      (s.bindEvent p).presses[p].effective = s.presses[p].effective := by
  unfold State.bindEvent
  split
  · split
    · next c h j _ =>
      obtain ⟨l, hfed⟩ := (s.takeJob p c h j).opportunity_fed p
      obtain ⟨_, _, _, _, _, _, _, -, hu⟩ := hfed.presses
      have htook := s.takeJob_press p c h j
      rw [State.bind_eq]
      simp only [hu, getElem_set_same, htook, and_self]
    · exact ⟨rfl, rfl⟩
  · exact ⟨rfl, rfl⟩

/-! ### The state that an accepted PRESS_SET leaves (R64) -/

/-- A press with its new profile, the zone included, and the capabilities that follow from it (R62). -/
def Press.withProfile (f : Profile) (pr : Press) : Press :=
  { pr with profile := f, effective := pr.reported.map fun r => f.caps.inter r.caps }

/-- It is the press of R64 steps 1 and 2 in its new zone. -/
theorem Press.inZone_written (f : Profile) (pr : Press) :
    ((pr.writeProfile f).recompute).inZone f.zone = pr.withProfile f := rfl

/-- The state after the writes of R64, whose press is still in its old zone. -/
def State.written (p : Fin 16) (f : Profile) (s : State) : State :=
  s.mapPress p fun pr => (pr.writeProfile f).recompute

theorem State.written_press (s : State) (p : Fin 16) (f : Profile) :
    (s.written p f).presses[p] = (s.presses[p].writeProfile f).recompute := State.mapPress_self ..

theorem State.setProfile_disabled (h : s.presses[p].link = .disabled) (f : Profile) :
    s.setProfile p f = s.mapPress p fun pr => { pr with profile := f } := if_pos h

theorem State.setProfile_online (h : s.presses[p].link = .online) (f : Profile) :
    s.setProfile p f = (((s.written p f).checkSilence p).moveZone p f.zone).bindEvent p := by
  have hw : (s.mapPress p (Press.writeProfile f)).mapPress p Press.recompute = s.written p f := by
    simp only [State.written, State.mapPress, getElem_set_same, Vector.set_set]
  rw [State.setProfile, if_neg (by rw [h]; exact nofun), hw]

/-- Profile and capabilities of a READY press follow, whatever the silence and the binding event bring. -/
theorem State.setProfile_press (h : s.presses[p].link = .online) (f : Profile) :
    (s.setProfile p f).presses[p].profile = f ∧
      (s.setProfile p f).presses[p].effective = s.presses[p].reported.map fun r => f.caps.inter r.caps := by
  obtain ⟨-, -, -, hprofile, -, heffective, -, -⟩ := ((s.written p f).checkSilence_sameWork p).press p
  rw [State.written_press] at hprofile heffective
  obtain ⟨presses, zones, hmove, rfl, -⟩ := ((s.written p f).checkSilence p).moveZone_eq p f.zone
  obtain ⟨hbind, hbind'⟩ := (((s.written p f).checkSilence p).moveZone p f.zone).bindEvent_press p
  rw [State.setProfile_online h, hbind, hbind', hmove]
  simp only [getElem_set_same, Press.inZone, hprofile, heffective]
  exact ⟨rfl, rfl⟩

/-- Where the press may not bind and no silence is found, nothing else changes. -/
theorem State.setProfile_idle (h : s.presses[p].link = .online) (hidle : s.presses[p].held = true ∨ s.mlc.mode ≠ .run)
    (hquiet : ∀ t, s.presses[p].lastFrame = some t → reached s.tb (t + ms f.linkTimeout) = true → s.silent p = true) :
    ∃ presses zones, s.setProfile p f = { s with presses, zones } ∧
      presses = s.presses.set p (s.presses[p].withProfile f) ∧
      ∀ z : Fin 4,
        if s.presses[p].profile.zone ≠ f.zone ∧ (z = s.presses[p].profile.zone ∨ z = f.zone) then
          zones[z] = (s.zones[z]).derive s.tb (patternOf (State.zoneEntries { s with presses } z))
        else zones[z] = s.zones[z] := by
  have hpr := s.written_press p f
  have hsilence : (s.written p f).checkSilence p = s.written p f := by
    refine State.checkSilence_quiet fun t ht hr => ?_
    rw [hpr] at ht
    obtain ⟨last, hlast, rfl⟩ := Option.map_eq_some_iff.mp ht
    exact hquiet last hlast hr
  obtain ⟨presses, zones, hmove, rfl, hzones⟩ := (s.written p f).moveZone_eq p f.zone
  rw [hpr] at hmove hzones
  rw [State.setProfile_online h, hsilence, hmove, State.bindEvent_idle fun hmay => ?_]
  · refine ⟨_, zones, rfl, ?_, hzones⟩
    rw [State.written, State.mapPress_presses, Vector.set_set, Press.inZone_written]
  · obtain ⟨-, hheld, hrun⟩ := (Press.mayBind_iff ..).mp hmay
    simp only [getElem_set_same] at hheld
    exact (hidle.elim (fun hyes => absurd (hyes.symm.trans hheld) Bool.noConfusion) fun hno => absurd hrun hno)

/-! ### PRESS_SET's answer (R63) -/

theorem Press.settable_iff (pr : Press) :
    pr.settable = true ↔ pr.link = .disabled ∨ (pr.link = .online ∧ pr.bound = none ∧ pr.path = []) := by
  simp [Press.settable, Press.ready, and_assoc]

/-- Settles O35: the body reads back, the press is settable or not by its link and its job, and R64 gives the state. -/
theorem pressSetWritesProfile : Obligations.PressSetWritesProfile := by
  intro tag p f s ht h1 h4 hnodup hgrades hlink hlink' hstall hstall' hunbind hcheck hcheck' pr body request
  have hf : f.InRange := ⟨h1, h4, hnodup, hgrades, hlink, hlink', hstall, hstall', hunbind, hcheck, hcheck'⟩
  have hbody : f.bytes = body := by
    simp only [body, Profile.bytes, Caps.bytes, list8, List.append_assoc]
  have hexec : exec request s = .next (if pr.settable then (s.setProfile p f).reply 0x28 tag .ok body
      else s.reply 0x28 tag .state []) := by
    change Host.Outcome.next (takeRequest 0x28 tag false (pressSet (u8 p.val ++ body)) s) = _
    rw [takeRequest_taken _ _ _ _ _ ht, ← hbody, pressSet_bytes hf]
    split <;> rfl
  have hsettable := pr.settable_iff
  rw [hexec]
  refine ⟨fun hl => ?_, fun hl => ?_, fun hl hb hp => ?_⟩
  · rw [if_pos (hsettable.mpr (.inl hl)), State.setProfile_disabled hl]
    rfl
  · have hno : ¬ pr.settable = true := fun hset => by
      obtain hoff | ⟨hon, hb, hp⟩ := hsettable.mp hset
      · rw [hoff] at hl; exact hl.elim nofun fun h => nomatch h.1
      · rw [hon] at hl; exact hl.elim nofun fun h => h.2.elim (absurd hb) (absurd hp)
    exact congrArg Host.Outcome.next (if_neg hno)
  · rw [if_pos (hsettable.mpr (.inr ⟨hl, hb, hp⟩))]
    refine ⟨⟨_, rfl, State.setProfile_press hl f⟩, fun hidle hquiet => ?_⟩
    obtain ⟨presses, zones, he, hpresses, hzones⟩ := State.setProfile_idle hl hidle hquiet
    exact ⟨presses, zones, by rw [he], hpresses, hzones⟩

end

end Sys2Proof.Machine
end

section
/-! What an engine may change of the part when it acts, by a dispatch opportunity or a binding event (R88, R93, R107,
R110): nothing but jobs, queues, accounts, notices, and its own press, whose hold it leaves. Outside RUN it does no more
than derive the feed condition again. -/

namespace Sys2Proof.Machine

/-! ### The parts of the state that no engine touches -/

/-- `t` is `s` after engines of the presses `l` have acted. -/
structure State.Acted (l : List (Fin 16)) (s t : State) : Prop where
  tb : t.tb = s.tb
  store : t.store = s.store
  au : t.au = s.au
  zones : t.zones = s.zones
  smm : t.smm = s.smm
  plans : t.mu.plans = s.mu.plans
  meters : t.mu.meters = s.mu.meters
  mode : t.mlc.mode = s.mlc.mode
  mask : t.mlc.mask = s.mlc.mask
  presses : ∀ q : Fin 16, q ∉ l → t.presses[q] = s.presses[q]
  held : ∀ q : Fin 16, t.presses[q].held = s.presses[q].held
  out : ∀ q : Fin 16, s.presses[q].out <+: t.presses[q].out

section
variable {l m : List (Fin 16)} {s t u : State}

theorem State.Acted.refl (l : List (Fin 16)) (s : State) : s.Acted l s :=
  ⟨rfl, rfl, rfl, rfl, rfl, rfl, rfl, rfl, rfl, fun _ _ => rfl, fun _ => rfl, fun _ => List.prefix_refl _⟩

theorem State.Acted.trans (a : s.Acted l t) (b : t.Acted l u) : s.Acted l u where
  tb := b.tb.trans a.tb
  store := b.store.trans a.store
  au := b.au.trans a.au
  zones := b.zones.trans a.zones
  smm := b.smm.trans a.smm
  plans := b.plans.trans a.plans
  meters := b.meters.trans a.meters
  mode := b.mode.trans a.mode
  mask := b.mask.trans a.mask
  presses q hq := (b.presses q hq).trans (a.presses q hq)
  held q := (b.held q).trans (a.held q)
  out q := (a.out q).trans (b.out q)

theorem State.Acted.mono (a : s.Acted l t) (h : l ⊆ m) : s.Acted m t :=
  { a with presses := fun q hq => a.presses q fun hl => hq (h hl) }

/-- A change of jobs, queues, accounts and rises. -/
theorem State.Acted.of_work (p : Fin 16) (jobs : Vector Slot 64) (ru : Ru) (accounts : Vector Account 256)
    (rises : List Rise) : s.Acted [p] { s with jobs, ru, mu := { s.mu with accounts, rises } } :=
  ⟨rfl, rfl, rfl, rfl, rfl, rfl, rfl, rfl, rfl, fun _ _ => rfl, fun _ => rfl, fun _ => List.prefix_refl _⟩

/-- A change of the press that keeps its hold and the frames sent. -/
theorem State.mapPress_acted (s : State) (p : Fin 16) (f : Press → Press)
    (hheld : (f s.presses[p]).held = s.presses[p].held) (hout : s.presses[p].out <+: (f s.presses[p]).out) :
    s.Acted [p] (s.mapPress p f) where
  tb := rfl
  store := rfl
  au := rfl
  zones := rfl
  smm := rfl
  plans := rfl
  meters := rfl
  mode := rfl
  mask := rfl
  presses q hq := s.mapPress_other (List.ne_of_not_mem_cons hq) f
  held q := by rw [State.mapPress_get]; split <;> simp_all
  out q := by rw [State.mapPress_get]; split <;> simp_all

theorem State.refresh_acted (s : State) (p : Fin 16) : s.Acted [p] (s.refresh p) :=
  s.mapPress_acted p _ rfl (List.prefix_refl _)

theorem State.send_acted (s : State) (p : Fin 16) (f : FeedFrame) : s.Acted [p] (s.send p f) :=
  s.mapPress_acted p _ rfl (List.prefix_append _ _)

theorem State.notice_acted (s : State) (l : List (Fin 16)) (k : NoticeKind) (a b : Nat) (d : List Byte) :
    s.Acted l (s.notice k a b d) := by
  obtain ⟨-, hmask, -, hmode, -⟩ := Mlc.enqueue_spec ⟨k, a, b, s.tb, padDetail d⟩ s.mlc
  exact { State.Acted.refl l s with mode := hmode, mask := hmask }

end

/-! ### A dispatch opportunity (R93 to R96) -/

section
variable (s : State) (p : Fin 16)

theorem State.noSheet_acted (c : Choice) : s.Acted [p] (s.noSheet p c) :=
  (s.mapPress_acted p (fun pr => { pr with lastChoice := some c }) rfl (List.prefix_refl _)).trans
    (State.refresh_acted _ p)

theorem State.fundsRefused_acted (h : Handle) (a : Fin 256) (c : Nat) : s.Acted [p] (s.fundsRefused p h a c) := by
  unfold State.fundsRefused
  dsimp only
  split
  · exact (s.noSheet_acted p .fundsWait).trans (State.notice_acted ..)
  · exact s.noSheet_acted p .fundsWait

/-- A sheet dispatched changes its job and its press. -/
theorem State.dispatch_acted (h : Handle) (j : Job) (fromList : Bool) (x : CopySheet) (r : SheetRecord) (c : Nat) :
    s.Acted [p] (s.dispatch p h j fromList x r c) := by
  have hjob (v : State) (f : Job → Job) : v.Acted [p] (v.mapJob h.slot f) := .of_work p _ v.ru _ _
  unfold State.dispatch
  exact ((s.mapPress_acted p _ rfl (List.prefix_refl _)).trans (hjob _ _)).trans (State.send_acted ..)

theorem State.trySheet_acted (h : Handle) (j : Job) (fromList : Bool) (x : CopySheet) :
    s.Acted [p] (s.trySheet p h j fromList x) := by
  unfold State.trySheet
  split
  · exact s.noSheet_acted p _
  · dsimp only
    split
    · exact ((State.Acted.of_work p _ _ _ _).trans (State.dispatch_acted _ p ..)).trans (State.refresh_acted _ p)
    · exact s.fundsRefused_acted p ..

theorem State.opportunity_acted : s.Acted [p] (s.opportunity p) := by
  unfold State.opportunity
  split
  · exact .refl _ s
  · split
    · exact s.refresh_acted p
    · split
      · split
        · exact s.noSheet_acted p _
        · exact s.trySheet_acted p ..
        · exact s.trySheet_acted p ..
      · exact s.refresh_acted p

/-! ### A binding event (R88, R89) -/

theorem State.takeJob_acted (c : Fin 8) (h : Handle) (j : Job) : s.Acted [p] (s.takeJob p c h j) := by
  have hjob : s.Acted [p]
      ((s.mapRu (Ru.remove c h)).mapJob h.slot fun j => { j with state := .active, press := some p }) :=
    .of_work p _ _ s.mu.accounts s.mu.rises
  unfold State.takeJob
  exact (hjob.trans (State.mapPress_acted _ p _ rfl (List.prefix_refl _))).trans (State.send_acted ..)

theorem State.bindEvent_acted : s.Acted [p] (s.bindEvent p) := by
  unfold State.bindEvent
  split
  · split
    · rw [State.bind_eq]
      exact (s.takeJob_acted p ..).trans (State.opportunity_acted _ p)
    · exact .refl _ s
  · exact .refl _ s

/-! ### An engine that may work again, as the mode becomes RUN or its hold ends (R107, R110) -/

theorem State.engineToRun_acted : s.Acted [p] (s.engineToRun p) := by
  unfold State.engineToRun
  split
  · exact s.opportunity_acted p
  · exact s.bindEvent_acted p

/-- Engines of several presses, one after another. -/
theorem State.foldl_engineToRun_acted (l : List (Fin 16)) (s : State) : s.Acted l (l.foldl State.engineToRun s) := by
  induction l generalizing s with
  | nil => exact .refl _ s
  | cons p l ih =>
    exact ((s.engineToRun_acted p).mono (List.cons_subset_cons p (List.nil_subset l))).trans
      ((ih _).mono (List.subset_cons_self p l))

/-! ### Outside RUN -/

variable {s}

theorem Press.mayDispatch_stopped {mode : Mode} (h : mode ≠ .run) (pr : Press) : pr.mayDispatch mode = false := by
  simp [Press.mayDispatch, h]

/-- Outside RUN an opportunity dispatches nothing and makes no choice. -/
theorem State.opportunity_stopped (h : s.mlc.mode ≠ .run) : s.opportunity p = s ∨ s.opportunity p = s.refresh p := by
  unfold State.opportunity
  split
  · exact .inl rfl
  · split
    · exact .inr rfl
    · simp only [Press.mayDispatch_stopped h, Bool.false_eq_true, if_false, or_true]

/-- Outside RUN nothing is bound. -/
theorem State.bindEvent_stopped (h : s.mlc.mode ≠ .run) : s.bindEvent p = s :=
  State.bindEvent_idle fun hmay => absurd ((Press.mayBind_iff ..).1 hmay).2.2 h

theorem State.engineToRun_stopped (h : s.mlc.mode ≠ .run) :
    s.engineToRun p = s ∨ s.engineToRun p = s.refresh p := by
  unfold State.engineToRun
  split
  · exact State.opportunity_stopped p h
  · exact .inl (State.bindEvent_stopped p h)

end

end Sys2Proof.Machine
end

section
/-! Dispatch (R92 to R97, R104, R136, R140): the tag of a new entry, the choice of a sheet, the state that each outcome of
an opportunity leaves, and the end of a transmission. -/

namespace Sys2Proof.Machine

/-! ### The tag of a new entry (R92) -/

theorem freshTag_self {path : List PathEntry} {c : Half} (h : ∀ e ∈ path, e.tag ≠ c) (n : Nat) :
    freshTag path n c = c := by
  cases n with
  | zero => rfl
  | succ n =>
    rw [freshTag, if_neg]
    simpa using h

/-- Where one of the tags tried is not in the path, the tag taken is not. -/
theorem freshTag_free {path : List PathEntry} (n : Nat) (c : Half)
    (h : ∃ i < n, ∀ e ∈ path, e.tag ≠ c + BitVec.ofNat 16 i) : ∀ e ∈ path, e.tag ≠ freshTag path n c := by
  induction n generalizing c with
  | zero => obtain ⟨i, hi, -⟩ := h; omega
  | succ n ih =>
    by_cases hc : ∀ e ∈ path, e.tag ≠ c
    · rwa [freshTag_self hc]
    · rw [freshTag, if_pos (by simpa using hc)]
      obtain ⟨i, hi, hfree⟩ := h
      cases i with
      | zero => exact absurd (by simpa using hfree) hc
      | succ i =>
        refine ih (c + 1) ⟨i, by omega, ?_⟩
        have hnext : c + 1 + BitVec.ofNat 16 i = c + BitVec.ofNat 16 (i + 1) := by
          rw [Nat.add_comm i 1, BitVec.ofNat_add, ← BitVec.add_assoc]
          rfl
        rwa [hnext]

/-- Of more tags in a row than a path has entries, one is not in it. -/
theorem exists_tag_free (path : List PathEntry) (h : path.length ≤ 8) (c : Half) :
    ∃ i < path.length + 1, ∀ e ∈ path, e.tag ≠ c + BitVec.ofNat 16 i := by
  by_contra hno
  let tried := (List.range (path.length + 1)).map fun i => c + BitVec.ofNat 16 i
  have hsub : tried ⊆ path.map PathEntry.tag := by
    intro x hx
    obtain ⟨i, hi, rfl⟩ := List.mem_map.mp hx
    by_contra hfree
    exact hno ⟨i, List.mem_range.mp hi, fun e he htag => hfree (List.mem_map.mpr ⟨e, he, htag⟩)⟩
  have hnodup : tried.Nodup := by
    refine List.Nodup.map_on (fun i hi k hk heq => ?_) List.nodup_range
    have := List.mem_range.mp hi
    have := List.mem_range.mp hk
    have heq : BitVec.ofNat 16 i = BitVec.ofNat 16 k := by simpa using heq
    have := congrArg BitVec.toNat heq
    simp only [BitVec.toNat_ofNat] at this
    omega
  have hlen := (hnodup.subperm hsub).length_le
  simp [tried] at hlen

/-- The tag of a new entry is not in the path. -/
theorem freshTag_not_mem {path : List PathEntry} (h : path.length ≤ 8) (c : Half) :
    ∀ e ∈ path, e.tag ≠ freshTag path (path.length + 1) c := freshTag_free _ c (exists_tag_free path h c)

/-! ### A press that may dispatch (R93) -/

/-- A press bound to the job of handle `h` that goes on to the choice of a sheet in RUN. -/
structure Press.Looks (h : Handle) (pr : Press) : Prop where
  link : pr.link = .online
  bound : pr.bound = some h
  held : pr.held = false
  idle : ∀ e ∈ pr.path, e.state ≠ .sending
  room : pr.path.length < pr.window

section
variable {pr : Press} {h : Handle} {j : Job} {x : CopySheet}

theorem Press.sending_iff (pr : Press) : pr.sending = true ↔ ∃ e ∈ pr.path, e.state = .sending := by
  simp [Press.sending]

theorem Press.Looks.sending (a : pr.Looks h) : pr.sending = false := by
  rw [Bool.eq_false_iff, Ne, Press.sending_iff]
  exact fun ⟨e, he, hs⟩ => a.idle e he hs

theorem Press.Looks.mayDispatch (a : pr.Looks h) : pr.mayDispatch .run = true := by
  simp [Press.mayDispatch, Press.feeding, a.link, a.bound, a.held, a.sending, a.room]

/-- The press after a choice that found no sheet, or no funds for one: the feed condition is that of the choice, and the
unbind timer goes on or starts in STARVED alone (R96, R104). -/
def Press.chosen (now : Time) (c : Choice) (pr : Press) : Press :=
  { pr with
    lastChoice := some c, cond := some c.cond
    unbindDeadline :=
      if c = .starved ∧ pr.path = [] ∧ pr.runUnbind.getD 0 ≠ 0 then
        some (pr.unbindDeadline.getD (now + secs (pr.runUnbind.getD 0)))
      else none }

/-- The feed condition of a press that could dispatch is that of its last choice (R96). -/
theorem Press.Looks.deriveCond (a : pr.Looks h) {c : Choice} (hc : pr.lastChoice = some c) :
    pr.deriveCond .run = some c.cond := by
  simp [Press.deriveCond, a.bound, a.held, a.sending, Nat.not_le.mpr a.room, hc]

theorem Press.Looks.refresh_choice (a : pr.Looks h) (now : Time) (c : Choice) :
    ({ pr with lastChoice := some c } : Press).refresh .run now = pr.chosen now c := by
  have a' : ({ pr with lastChoice := some c } : Press).Looks h := ⟨a.link, a.bound, a.held, a.idle, a.room⟩
  have hcond : ({ pr with lastChoice := some c } : Press).deriveCond .run = some c.cond := a'.deriveCond rfl
  have hruns : ({ pr with lastChoice := some c, cond := some c.cond } : Press).unbindRuns = true ↔
      c = .starved ∧ pr.path = [] ∧ pr.runUnbind.getD 0 ≠ 0 := by
    cases c <;> simp [Press.unbindRuns, Choice.cond, a.bound, a.held, and_comm]
  simp only [Press.refresh, hcond, Press.chosen, hruns]

/-- A press that has begun to send a sheet shows SENDING, and its unbind timer stops (R96, R104). -/
theorem Press.Looks.refresh_withSheet (a : pr.Looks h) (j : Job) (x : CopySheet) (r : SheetRecord) (c : Nat)
    (now : Time) :
    (pr.withSheet h j x r c now).refresh .run now =
      { pr.withSheet h j x r c now with cond := some .sending, unbindDeadline := none } := by
  have hsending : (pr.withSheet h j x r c now).sending = true :=
    (Press.sending_iff _).mpr ⟨_, List.mem_append_right _ (List.mem_singleton_self _), rfl⟩
  have hcond : (pr.withSheet h j x r c now).deriveCond .run = some .sending := by
    have hbound : (pr.withSheet h j x r c now).bound = some h := a.bound
    have hheld : (pr.withSheet h j x r c now).held = false := a.held
    simp [Press.deriveCond, hbound, hheld, hsending]
  have hruns : ({ pr.withSheet h j x r c now with cond := some .sending } : Press).unbindRuns = false := by
    simp [Press.unbindRuns, Press.withSheet]
  simp only [Press.refresh, hcond, hruns, Bool.false_eq_true, if_false]

/-! ### The choice of a sheet (R94) -/

theorem chooseSheet_unfit (ha : pr.allows j = false) : chooseSheet pr j = .nothing .starved := by
  simp [chooseSheet, ha]

theorem chooseSheet_ending (ha : pr.allows j = true) (hs : j.state = .ending) :
    chooseSheet pr j = .nothing .draining := by simp [chooseSheet, ha, hs]

theorem chooseSheet_reprint {rest : List CopySheet} (ha : pr.allows j = true) (hs : j.state ≠ .ending)
    (hr : j.reprint = x :: rest) : chooseSheet pr j = .reprint x := by simp [chooseSheet, ha, hs, hr]

theorem chooseSheet_allDispatched (ha : pr.allows j = true) (hs : j.state ≠ .ending) (hr : j.reprint = [])
    (hc : j.cursor = .allDispatched) : chooseSheet pr j = .nothing .draining := by simp [chooseSheet, ha, hs, hr, hc]

theorem chooseSheet_next {c n : Nat} (ha : pr.allows j = true) (hs : j.state ≠ .ending) (hr : j.reprint = [])
    (hc : j.cursor = .next c n) :
    chooseSheet pr j = if 1 ≤ n ∧ n ≤ j.sheets then .cursor ⟨c, n⟩ else .nothing .starved := by
  simp [chooseSheet, ha, hs, hr, hc]

end

/-! ### The outcomes of an opportunity (R94 to R96, R136, R140) -/

section
variable {s : State} {p : Fin 16} {h : Handle} {j : Job}

/-- The choice of the sheet decides the opportunity. -/
theorem State.opportunity_looks (a : s.presses[p].Looks h) (hrun : s.mlc.mode = .run) (hj : s.jobOf h = some j) :
    (∀ c, chooseSheet s.presses[p] j = .nothing c → s.opportunity p = s.noSheet p c) ∧
      (∀ x, chooseSheet s.presses[p] j = .reprint x → s.opportunity p = s.trySheet p h j true x) ∧
      ∀ x, chooseSheet s.presses[p] j = .cursor x → s.opportunity p = s.trySheet p h j false x := by
  simp only [State.opportunity, a.bound, hj, hrun, a.mayDispatch, if_true]
  refine ⟨fun c hc => ?_, fun x hc => ?_, fun x hc => ?_⟩ <;> rw [hc]

/-- The next sheet of a job in ACTIVE is the head of the reprint list, or where that is empty the sheet at the cursor. -/
theorem State.opportunity_sheet (a : s.presses[p].Looks h) (hrun : s.mlc.mode = .run) (hj : s.jobOf h = some j)
    (hallow : s.presses[p].allows j = true) (hs : j.state ≠ .ending) {x : CopySheet}
    (hx : j.reprint.head? = some x ∨
      j.reprint = [] ∧ j.cursor = .next x.copy x.sheet ∧ 1 ≤ x.sheet ∧ x.sheet ≤ j.sheets) :
    s.opportunity p = s.trySheet p h j (!j.reprint.isEmpty) x := by
  obtain ⟨-, hreprint, hcursor⟩ := State.opportunity_looks a hrun hj
  obtain hr | ⟨hr, hc, h1, hn⟩ := hx
  · obtain ⟨rest, hr⟩ := List.head?_eq_some_iff.mp hr
    rw [hreprint x (chooseSheet_reprint hallow hs hr), hr]
    rfl
  · have hchoice := chooseSheet_next hallow hs hr hc
    rw [if_pos ⟨h1, hn⟩] at hchoice
    rw [hcursor x hchoice, hr]
    rfl

/-- No sheet, or no funds for one: the press alone changes. -/
theorem State.noSheet_eq (a : s.presses[p].Looks h) (hrun : s.mlc.mode = .run) (c : Choice) :
    s.noSheet p c = { s with presses := s.presses.set p (s.presses[p].chosen s.tb c) } := by
  simp only [State.noSheet, State.refresh, State.mapPress, getElem_set_same, Vector.set_set, hrun,
    a.refresh_choice]

/-- A refused reservation of a press that was not in FUNDS_WAIT: the press, and the FUNDS notice. -/
theorem State.fundsRefused_eq (a : s.presses[p].Looks h) (hrun : s.mlc.mode = .run)
    (hcond : s.presses[p].cond ≠ some .fundsWait) (n : Fin 256) (c : Nat) :
    s.fundsRefused p h n c =
      State.notice .funds 0 p.val (fundsDetail h n c s.mu.accounts[n].availability)
        { s with presses := s.presses.set p (s.presses[p].chosen s.tb .fundsWait) } := by
  have hentered : (s.presses.set p (s.presses[p].chosen s.tb .fundsWait))[p].cond = some .fundsWait := by
    rw [getElem_set_same]; rfl
  simp only [State.fundsRefused, State.noSheet_eq a hrun, hentered, decide_eq_false hcond, decide_true, Bool.not_false,
    Bool.and_true, if_true]

theorem Account.grants_iff (a : Account) (c : Nat) :
    a.grants c = true ↔ a.state = .opened ∧ (c : Int) ≤ a.balance - a.held + a.limit := by
  rw [Account.grants, Bool.and_eq_true, decide_eq_true_iff, decide_eq_true_iff]
  rfl

/-- A sheet whose charge is granted: the account holds it, the sheet leaves list or cursor, and the press sends. -/
theorem State.trySheet_granted (a : s.presses[p].Looks h) (hrun : s.mlc.mode = .run) (hj : s.jobOf h = some j)
    {x : CopySheet} {r : SheetRecord} (hr : s.smm.sheet? h.slot x.sheet = some r)
    (hg : s.mu.accounts[j.account].grants (s.sheetCharge j r) = true) (fromList : Bool) :
    s.trySheet p h j fromList x =
      { s with
        mu := { s.mu with
          accounts := s.mu.accounts.set j.account { s.mu.accounts[j.account] with
            held := s.mu.accounts[j.account].held + s.sheetCharge j r } }
        jobs := s.jobs.set h.slot { gen := h.gen, job := some (j.takeSheet fromList x) }
        presses := s.presses.set p { s.presses[p].withSheet h j x r (s.sheetCharge j r) s.tb with
          cond := some .sending, unbindDeadline := none } } := by
  let v := s.reserve j.account (s.sheetCharge j r)
  have hjobs : (v.dispatch p h j fromList x r (s.sheetCharge j r)).jobs =
      s.jobs.set h.slot { gen := h.gen, job := some (j.takeSheet fromList x) } := State.mapJob_slot (s := v) hj _
  have hpresses := State.dispatch_presses v p h j fromList x r (s.sheetCharge j r)
  have hdispatch : v.dispatch p h j fromList x r (s.sheetCharge j r) =
      { v with
        jobs := s.jobs.set h.slot { gen := h.gen, job := some (j.takeSheet fromList x) }
        presses := s.presses.set p (s.presses[p].withSheet h j x r (s.sheetCharge j r) s.tb) } := by
    rw [← hjobs]
    exact congrArg (fun presses => { v.dispatch p h j fromList x r (s.sheetCharge j r) with presses }) hpresses
  simp only [State.trySheet, hr, hg, if_true]
  rw [hdispatch]
  simp only [State.refresh, State.mapPress, getElem_set_same, Vector.set_set, v, State.reserve, State.mapAccount,
    State.mapMu, hrun, a.refresh_withSheet]

/-- A sheet whose charge is refused on a press that was not in FUNDS_WAIT. -/
theorem State.trySheet_refused (a : s.presses[p].Looks h) (hrun : s.mlc.mode = .run)
    (hcond : s.presses[p].cond ≠ some .fundsWait) {x : CopySheet} {r : SheetRecord}
    (hr : s.smm.sheet? h.slot x.sheet = some r)
    (hg : s.mu.accounts[j.account].grants (s.sheetCharge j r) = false) (fromList : Bool) :
    s.trySheet p h j fromList x =
      State.notice .funds 0 p.val
        (fundsDetail h j.account (s.sheetCharge j r) s.mu.accounts[j.account].availability)
        { s with presses := s.presses.set p (s.presses[p].chosen s.tb .fundsWait) } := by
  simp only [State.trySheet, hr, hg, Bool.false_eq_true, if_false, State.fundsRefused_eq a hrun hcond]

/-! ### A reported rise (R139) -/

/-- The state in which an engine has taken a reported rise. -/
def State.takeRise (p : Fin 16) (a : Fin 256) (s : State) : State :=
  s.mapMu fun m => { m with rises := m.rises.erase { press := p, account := a } }

theorem exec_availabilityRiseReport {a : Fin 256} (hm : ({ press := p, account := a } : Rise) ∈ s.mu.rises) :
    exec (.availabilityRiseReport p a) s = .next ((s.takeRise p a).opportunity p) :=
  congrArg Host.Outcome.next (if_pos hm)

/-! ### The end of a transmission (R80, R97) -/

/-- What an opportunity appends to the path it sends the head of, one frame for one entry. -/
theorem State.opportunity_sends (s : State) (p : Fin 16) :
    ∃ l m, s.Fed p l (s.opportunity p) ∧ (s.opportunity p).presses[p].out = s.presses[p].out ++ m ∧
      l.length = m.length ∧ (s.opportunity p).ru = s.ru := by
  obtain ⟨l, hfed⟩ := s.opportunity_fed p
  have hpath : (s.opportunity p).presses[p].path = s.presses[p].path ++ l := by
    obtain ⟨_, _, _, _, _, _, _, rfl, hset⟩ := hfed.presses
    simp only [hset, getElem_set_same]
  have hlen : (s.opportunity p).presses[p].path.length = s.presses[p].path.length + l.length := by
    rw [hpath, List.length_append]
  have hquiet (ho : s.opportunity p = s ∨ s.opportunity p = s.refresh p) :
      (s.opportunity p).presses[p].out = s.presses[p].out ++ [] ∧
        (s.opportunity p).presses[p].path = s.presses[p].path ∧ (s.opportunity p).ru = s.ru := by
    rw [List.append_nil]
    obtain ho | ho := ho
    · rw [ho]; exact ⟨rfl, rfl, rfl⟩
    · rw [ho, State.refresh, State.mapPress_self]; exact ⟨rfl, rfl, rfl⟩
  cases hb : s.presses[p].bound.bind s.jobOf with
  | some j =>
    obtain ⟨h, hbound, hj⟩ := Option.bind_eq_some_iff.mp hb
    obtain ⟨m, -, k⟩ := State.looked_opportunity hbound hj
    have hm := k.path
    exact ⟨l, m, hfed, k.out, by omega, k.ru⟩
  | none =>
    have ho : s.opportunity p = s ∨ s.opportunity p = s.refresh p := by
      unfold State.opportunity
      split
      · exact .inl rfl
      · next h hbound =>
        rw [hbound, Option.bind_some] at hb
        exact .inr (by rw [hb])
    obtain ⟨hout, hkept, hru⟩ := hquiet ho
    rw [hkept] at hlen
    have hl : l.length = 0 := by omega
    exact ⟨l, [], hfed, hout, hl, hru⟩

/-- The press at the end of its transmission, before its opportunity: the frames left and SHEET_END sent, the entry moved
on. -/
def Press.sentOut (t : Transmission) (frames : List FeedFrame) (pr : Press) : Press :=
  { pr.mapEntry t.tag PathEntry.sentOut with out := pr.out ++ frames ++ [.sheetEnd t.tag], tx := none }

theorem State.endTransmission_eq (s : State) (p : Fin 16) (t : Transmission) :
    s.endTransmission p t =
      (s.mapPress p (Press.sentOut t (s.dataFrames t t.sent (s.dataLeft t)))).opportunity p := by
  simp only [State.endTransmission, State.sendData, State.send, State.mapPress, getElem_set_same, Vector.set_set]
  rfl

/-- The frames left of a transmission are those of all its blocks from the first not sent on. -/
theorem State.dataFrames_left (s : State) (t : Transmission) :
    s.dataFrames t t.sent (s.dataLeft t) = match s.smm.sheet? t.slot t.sheet with
      | some r => (r.blocks.drop t.sent).map fun b => .sheetData t.tag (s.smm.readBlock t.slot r b)
      | none => [] := by
  unfold State.dataFrames State.dataLeft
  cases s.smm.sheet? t.slot t.sheet with
  | none => rfl
  | some r => exact congrArg (List.map _) (List.take_of_length_le (by rw [List.length_drop]))

theorem exec_transmissionEnd {x : Transmission} (hx : s.presses[p].tx = some x) :
    exec (.transmissionEnd p) s = .next (s.endTransmission p x) := by
  change Host.Outcome.next (match s.presses[p].tx with | some t => s.endTransmission p t | none => s) = _
  rw [hx]

theorem exec_transmissionEnd_idle (hx : s.presses[p].tx = none) : exec (.transmissionEnd p) s = .next s := by
  change Host.Outcome.next (match s.presses[p].tx with | some t => s.endTransmission p t | none => s) = _
  rw [hx]

/-- Of the path the entry of the tag moves on, if it is SENDING. -/
theorem Press.sentOut_path (t : Transmission) (frames : List FeedFrame) (pr : Press) :
    (pr.sentOut t frames).path = pr.path.map fun e =>
      if e.tag = t.tag ∧ e.state = .sending then
        { e with state := if e.takenAt.isSome then .taken else .sent }
      else e := by
  refine List.map_congr_left fun e _ => ?_
  by_cases htag : e.tag = t.tag
  · simp only [htag, if_true, true_and, PathEntry.sentOut]
  · simp only [htag, if_false, false_and]

/-! ### The statement -/

/-- Settles O58: a rise taken leads to an opportunity, whose outcome the choice of the sheet and its charge decide; the end
of a transmission moves its entry on before one. -/
theorem sheetsDispatchedAndSent : Obligations.SheetsDispatchedAndSent := by
  intro p s pr
  refine ⟨fun a h j r x hm hl hb hheld hrun hidle hroom h8 hj hallow hactive hx hr => ?_,
    fun a h j hm hl hb hheld hrun hidle hroom hj => ?_, fun a hm => congrArg Host.Outcome.next (if_neg hm),
    fun x hx => ?_, fun hx => exec_transmissionEnd_idle hx⟩
  · intro acc price rises command taken
    have look : (s.takeRise p a).presses[p].Looks h := ⟨hl, hb, hheld, hidle, hroom⟩
    have hexec : exec command s = .next ((s.takeRise p a).trySheet p h j (!j.reprint.isEmpty) x) := by
      rw [← State.opportunity_sheet look hrun hj hallow (by rw [hactive]; exact nofun) hx]
      exact exec_availabilityRiseReport hm
    have htaken : taken = j.takeSheet (!j.reprint.isEmpty) x := by
      cases hre : j.reprint <;> simp [taken, hre, Job.takeSheet, Job.advanced]
    rw [hexec, htaken]
    refine ⟨fun hopen hfits => ?_, fun hno hcond => ?_⟩
    · refine ⟨freshTag pr.path (pr.path.length + 1) pr.tagCounter, freshTag_not_mem h8 _,
        fun hfree => freshTag_self hfree _, ?_⟩
      rw [State.trySheet_granted look hrun hj hr ((Account.grants_iff ..).mpr ⟨hopen, hfits⟩)]
      rfl
    · have hg : acc.grants price = false := by
        rw [Bool.eq_false_iff, Ne, Account.grants_iff]
        rintro ⟨hopen, hfits⟩
        exact hno.elim (fun hn => hn hopen) fun hlt => absurd hfits (by omega)
      rw [State.trySheet_refused look hrun hcond hr hg]
      rfl
  · intro leaves starves drains
    have look : (s.takeRise p a).presses[p].Looks h := ⟨hl, hb, hheld, hidle, hroom⟩
    have hexec (c : Choice) (hc : chooseSheet pr j = .nothing c) :
        exec (.availabilityRiseReport p a) s = .next { s.takeRise p a with
          presses := s.presses.set p (pr.chosen s.tb c) } := by
      rw [exec_availabilityRiseReport hm, (State.opportunity_looks look hrun hj).1 c hc]
      exact congrArg Host.Outcome.next (State.noSheet_eq look hrun c)
    have hstarves (hc : chooseSheet pr j = .nothing .starved) : starves := by
      simp only [starves, leaves, hexec _ hc, Press.chosen, true_and]
      rfl
    have hdrains (hc : chooseSheet pr j = .nothing .draining) : drains := hexec _ hc
    refine ⟨fun ha => hstarves (chooseSheet_unfit ha), fun ha hs => hdrains (chooseSheet_ending ha hs),
      fun ha hs hre hc => hdrains (chooseSheet_allDispatched ha hs hre hc), fun c n ha hs hre hc hn => hstarves ?_⟩
    rw [chooseSheet_next ha hs hre hc, if_neg fun hle => absurd hle.2 (by omega)]
  · let v := s.mapPress p (Press.sentOut x (s.dataFrames x x.sent (s.dataLeft x)))
    have hv : v.presses[p] = pr.sentOut x (s.dataFrames x x.sent (s.dataLeft x)) := s.mapPress_self p _
    obtain ⟨l, m, hfed, hout, hlen, hru⟩ := v.opportunity_sends p
    have hacted := v.opportunity_acted p
    refine ⟨v.opportunity p, l, m, ?_, ?_, ?_, hlen, hfed.few, fun hrun => ?_, hfed.smm, hru, fun q hq => ?_⟩
    · rw [exec_transmissionEnd hx, State.endTransmission_eq]
    · obtain ⟨_, _, _, _, _, _, _, rfl, hset⟩ := hfed.presses
      simp only [hset, getElem_set_same, hv, Press.sentOut_path]
    · rw [hout, hv]
      exact (List.append_assoc ..).trans
        (congrArg (fun frames => pr.out ++ frames ++ .sheetEnd x.tag :: m) (s.dataFrames_left x))
    · obtain ⟨hl, hjobs, hmu, -, -⟩ := hfed.stopped hrun
      refine ⟨hl, ?_, hjobs, hmu⟩
      obtain ho | ho := State.opportunity_stopped p (s := v) hrun
      · rw [ho, hv]; rfl
      · rw [ho, State.refresh, State.mapPress_self, hv]; rfl
    · exact (hacted.presses q (by simpa using hq)).trans (s.mapPress_other hq _)

end

end Sys2Proof.Machine
end

section
/-! MODE_SET (R203, R204, R110): the mode becomes RUN and the engines of the ONLINE presses act, or QUIESCING, and SETUP at
once where every path is empty. -/

namespace Sys2Proof.Machine

section
variable {s : State}

/-! ### The request (R203) -/

variable (tag : Byte)

theorem exec_modeSetRun_same (ht : s.takes = true) (h : s.mlc.mode = .run) :
    exec (.modeSetRun tag [0]) s = .next (s.reply 0x04 tag .ok [1]) := by
  have hown : modeSet [0] s = acceptMode s := congrArg acceptMode (if_pos h)
  change Host.Outcome.next (takeRequest 0x04 tag false (modeSet [0]) s) = _
  rw [takeRequest_taken _ _ _ _ _ ht, hown, acceptMode, h]
  rfl

theorem exec_modeSetRun_other (ht : s.takes = true) (h : s.mlc.mode ≠ .run) :
    exec (.modeSetRun tag [0]) s = .next (s.toRun.reply 0x04 tag .ok (u8 s.toRun.mlc.mode.code)) := by
  have hown : modeSet [0] s = acceptMode s.toRun := congrArg acceptMode (if_neg h)
  change Host.Outcome.next (takeRequest 0x04 tag false (modeSet [0]) s) = _
  rw [takeRequest_taken _ _ _ _ _ ht, hown]
  rfl

theorem exec_modeSetQuiesce_setup (ht : s.takes = true) (h : s.mlc.mode = .setup) :
    exec (.modeSetQuiesce tag [1]) s = .next (s.reply 0x04 tag .mode []) := by
  have hown : modeSet [1] s = refuse .mode s := by simp [modeSet, h]
  change Host.Outcome.next (takeRequest 0x04 tag false (modeSet [1]) s) = _
  rw [takeRequest_taken _ _ _ _ _ ht, hown]
  rfl

theorem exec_modeSetQuiesce_run (ht : s.takes = true) (h : s.mlc.mode = .run) :
    exec (.modeSetQuiesce tag [1]) s =
      .next (s.toQuiescing.reply 0x04 tag .ok (u8 s.toQuiescing.mlc.mode.code)) := by
  have hown : modeSet [1] s = acceptMode s.toQuiescing := by simp [modeSet, h]
  change Host.Outcome.next (takeRequest 0x04 tag false (modeSet [1]) s) = _
  rw [takeRequest_taken _ _ _ _ _ ht, hown]
  simp only [acceptMode, accept]

/-! ### RUN (R110) -/

/-- The mode becomes RUN, and the engines of the ONLINE presses act in some order. -/
theorem State.toRun_acted (s : State) :
    ∃ (l : List (Fin 16)) (n : Nat), (∀ p, p ∈ l ↔ s.presses[p].link = .online) ∧
      ({ s with mlc := { s.mlc with mode := .run }, choices := n } : State).Acted l s.toRun := by
  let online := (List.finRange 16).filter fun p => decide (s.presses[p].link = .online)
  let v := s.mapMlc fun m => { m with mode := .run }
  refine ⟨(v.inAnyOrder online).1, (v.inAnyOrder online).2.choices, fun p => ?_, State.foldl_engineToRun_acted _ _⟩
  have hperm : (v.inAnyOrder online).1.Perm online := shuffle_perm ..
  rw [hperm.mem_iff]
  simp [online]

/-! ### QUIESCING (R204) -/

/-- Feed conditions derived again leave paths, bound jobs, holds and the frames sent. -/
theorem State.foldl_refresh (l : List (Fin 16)) (s : State) :
    ∃ presses : Vector Press 16, l.foldl (fun s p => s.refresh p) s = { s with presses } ∧
      ∀ p : Fin 16, presses[p].path = s.presses[p].path ∧ presses[p].bound = s.presses[p].bound ∧
        presses[p].held = s.presses[p].held ∧ presses[p].out = s.presses[p].out := by
  induction l generalizing s with
  | nil => exact ⟨s.presses, rfl, fun _ => ⟨rfl, rfl, rfl, rfl⟩⟩
  | cons q l ih =>
    obtain ⟨presses, heq, hkept⟩ := ih (s.refresh q)
    refine ⟨presses, heq, fun p => ?_⟩
    have hp : (s.refresh q).presses[p] = if q = p then Press.refresh s.mlc.mode s.tb s.presses[q] else s.presses[p] :=
      State.mapPress_get ..
    obtain ⟨hpath, hbound, hheld, hout⟩ := hkept p
    rw [hpath, hbound, hheld, hout, hp]
    split
    · next e => subst e; exact ⟨rfl, rfl, rfl, rfl⟩
    · exact ⟨rfl, rfl, rfl, rfl⟩

theorem State.allPathsEmpty_iff (s : State) : s.allPathsEmpty = true ↔ ∀ p : Fin 16, s.presses[p].path = [] := by
  simp only [State.allPathsEmpty, List.all_eq_true, Vector.mem_toList_iff, Vector.mem_iff_getElem,
    List.isEmpty_iff]
  exact ⟨fun h p => h _ ⟨p.val, p.isLt, rfl⟩, fun h pr ⟨i, hi, he⟩ => he ▸ h ⟨i, hi⟩⟩

/-- Pending marks on a list of presses change the marks of those presses alone (R148). -/
theorem State.markAll_eq (l : List (Fin 16)) (s : State) :
    ∃ marks : Vector Mark 16, s.markAll l = { s with store := { s.store with marks } } ∧
      ∀ p : Fin 16, marks[p] = if p ∈ l then { s.store.marks[p] with pending := true } else s.store.marks[p] := by
  induction l generalizing s with
  | nil => exact ⟨s.store.marks, rfl, fun p => by simp⟩
  | cons q l ih =>
    obtain ⟨marks, heq, hmarks⟩ := ih (s.markPending q)
    refine ⟨marks, heq, fun p => ?_⟩
    rw [hmarks p]
    by_cases hq : p = q
    · subst hq
      simp [State.markPending, State.mapMark]
    · have hother : (s.markPending q).store.marks[p] = s.store.marks[p] := getElem_set_other _ hq _
      simp only [hother, List.mem_cons, hq, false_or]

/-- With an entry left in some path QUIESCING goes on. -/
theorem State.quiesceTest_waits (h : ∃ p : Fin 16, s.presses[p].path ≠ []) : s.quiesceTest = s := by
  obtain ⟨p, hp⟩ := h
  exact if_neg fun hend => hp ((State.allPathsEmpty_iff s).mp hend.2 p)

/-- With every path empty it ends in SETUP, with every press marked pending and the QUIESCED notice queued. -/
theorem State.quiesceTest_ends (hmode : s.mlc.mode = .quiescing) (h : ∀ p : Fin 16, s.presses[p].path = []) :
    ∃ marks : Vector Mark 16, s.quiesceTest =
        { s with
          mlc := Mlc.enqueue { kind := .mode, subtype := 0, object := 0, time := s.tb, detail := [0, 0, 0, 0] }
            { s.mlc with mode := .setup }
          store := { s.store with marks } } ∧
      ∀ p : Fin 16, marks[p] = { pending := true, forced := s.store.marks[p].forced } := by
  obtain ⟨marks, heq, hmarks⟩ := State.markAll_eq (List.finRange 16) (s.mapMlc fun m => { m with mode := .setup })
  refine ⟨marks, ?_, fun p => ?_⟩
  · rw [State.quiesceTest, if_pos ⟨hmode, (State.allPathsEmpty_iff s).mpr h⟩, heq]
    rfl
  · rw [hmarks p, if_pos (List.mem_finRange p)]
    rfl

/-- The state in which the drain begins, before the test for its end. -/
theorem State.toQuiescing_eq (s : State) :
    ∃ presses : Vector Press 16,
      s.toQuiescing = ({ s with mlc := { s.mlc with mode := .quiescing }, presses } : State).quiesceTest ∧
      ∀ p : Fin 16, presses[p].path = s.presses[p].path ∧ presses[p].bound = s.presses[p].bound ∧
        presses[p].held = s.presses[p].held ∧ presses[p].out = s.presses[p].out := by
  obtain ⟨presses, heq, hkept⟩ :=
    State.foldl_refresh (List.finRange 16) (s.mapMlc fun m => { m with mode := .quiescing })
  exact ⟨presses, congrArg State.quiesceTest heq, hkept⟩

/-! ### The statement -/

/-- Settles O21: the request is taken, and the mode decides what it does. -/
theorem modeSetMovesMode : Obligations.ModeSetMovesMode := by
  refine ⟨fun tag s ht => ?_, fun tag s ht hrun => ?_,
    fun tag s ht hsetup => exec_modeSetQuiesce_setup tag ht hsetup⟩
  · by_cases hrun : s.mlc.mode = .run
    · exact ⟨s, exec_modeSetRun_same tag ht hrun, hrun, fun _ => rfl, rfl, rfl, rfl, rfl, rfl, rfl, rfl, rfl,
        fun _ _ => rfl⟩
    · obtain ⟨l, n, hl, hacted⟩ := s.toRun_acted
      have hexec := exec_modeSetRun_other tag ht hrun
      rw [hacted.mode] at hexec
      exact ⟨s.toRun, hexec, hacted.mode, fun h => absurd h hrun, hacted.tb, hacted.store, hacted.au, hacted.zones,
        hacted.smm, hacted.plans, hacted.meters, hacted.mask,
        fun p hp => hacted.presses p fun hm => hp ((hl p).mp hm)⟩
  · obtain ⟨presses, heq, hkept⟩ := s.toQuiescing_eq
    let v : State := { s with mlc := { s.mlc with mode := .quiescing }, presses }
    have hexec := exec_modeSetQuiesce_run tag ht hrun
    rw [show s.toQuiescing = v.quiesceTest from heq] at hexec
    by_cases hpath : ∃ p : Fin 16, s.presses[p].path ≠ []
    · have hwaits : v.quiesceTest = v := by
        obtain ⟨p, hp⟩ := hpath
        exact State.quiesceTest_waits ⟨p, by rw [(hkept p).1]; exact hp⟩
      rw [hwaits] at hexec
      exact ⟨v, hexec, rfl, rfl, rfl, rfl, rfl, rfl, rfl, hkept, fun _ => ⟨rfl, rfl⟩,
        fun hempty => absurd hempty (by simpa using hpath)⟩
    · have hempty : ∀ p : Fin 16, s.presses[p].path = [] := by simpa using hpath
      have hv (p : Fin 16) : presses[p].path = [] := (hkept p).1.trans (hempty p)
      obtain ⟨marks, hends, hmarks⟩ := State.quiesceTest_ends (s := v) rfl hv
      rw [hends] at hexec
      exact ⟨_, hexec, rfl, rfl, rfl, rfl, rfl, rfl, rfl, hkept, fun h => absurd h hpath,
        fun _ => ⟨rfl, rfl, hmarks⟩⟩

end

end Sys2Proof.Machine
end

section
/-! ALERT_CLEAR and the retry deadline (R176, R177, R179, R107): the entries removed one after another with their notices,
and the end of the hold where the last holding entry has gone. -/

namespace Sys2Proof.Machine

/-! ### Tables without some entries (R170) -/

/-- A press is held by its table exactly when some entry there holds it. -/
theorem tableHolds_iff (t : Vector (Option AlertEntry) 11) :
    tableHolds t = true ↔ ∃ (i : Fin 11) (e : AlertEntry), t[i] = some e ∧ e.holds = true := by
  simp only [tableHolds, tableEntries, List.any_eq_true, List.mem_filterMap, id_eq, exists_eq_right,
    Vector.mem_toList_iff, Vector.mem_iff_getElem]
  constructor
  · rintro ⟨e, ⟨i, hi, he⟩, hh⟩
    exact ⟨⟨i, hi⟩, e, he, hh⟩
  · rintro ⟨i, e, he, hh⟩
    exact ⟨e, ⟨i.val, i.isLt, he⟩, hh⟩

theorem tableWithout_get (l : List AlertKind) (t : Vector (Option AlertEntry) 11) (k : AlertKind) :
    (tableWithout t l)[k.code] = if k ∈ l then none else t[k.code] := by
  induction l generalizing t with
  | nil => simp [tableWithout]
  | cons k' l ih =>
    have hcons : tableWithout t (k' :: l) = tableWithout (t.set k'.code none) l := rfl
    rw [hcons, ih]
    by_cases hk : k = k'
    · subst hk
      rw [getElem_set_same]
      simp
    · rw [getElem_set_other _ fun hc => hk (AlertKind.code_injective hc)]
      simp [hk]

/-- Every place of a table is that of a kind. -/
theorem AlertKind.exists_code (i : Fin 11) : ∃ k : AlertKind, k.code = i := by
  have hall : ∀ i : Fin 11, ∃ k ∈ AlertKind.all, k.code = i := by decide
  obtain ⟨k, -, hk⟩ := hall i
  exact ⟨k, hk⟩

/-- A table that holds its press without some entries holds it with them. -/
theorem tableHolds_of_without {t : Vector (Option AlertEntry) 11} {l : List AlertKind}
    (h : tableHolds (tableWithout t l) = true) : tableHolds t = true := by
  obtain ⟨i, e, he, hh⟩ := (tableHolds_iff _).mp h
  obtain ⟨k, rfl⟩ := AlertKind.exists_code i
  rw [tableWithout_get] at he
  split at he
  · exact absurd he nofun
  · exact (tableHolds_iff t).mpr ⟨k.code, e, he, hh⟩

theorem kindSetOf_nodup (n : Nat) : (kindSetOf n).Nodup := by
  have hall : AlertKind.all.Nodup := by decide
  unfold kindSetOf
  split
  · exact hall
  · exact hall.filter _

/-! ### The removals (R179 steps 1 to 3) -/

/-- The REMOVED notice of a kind (R182). -/
def removedNotice (p : Fin 16) (reason : RemovalReason) (held : Bool) (now : Time) (occurrences : AlertKind → Nat)
    (k : AlertKind) : Notice :=
  { kind := .alert, subtype := 3, object := p.val, time := now
    detail := u8 k.code.val ++ u8 reason.code ++ u8 (occurrences k) ++ flag held }

section
variable (p : Fin 16) (reason : RemovalReason) (held : Bool) (occurrences : AlertKind → Nat)

/-- One entry leaves its table, its zone's pattern is derived again, and the notice is queued. -/
theorem State.removeEntry_eq {s : State} {k : AlertKind}
    (h : (s.entry p k).map AlertEntry.occurrences = some (occurrences k)) :
    ∃ zones : Vector Zone 4, s.removeEntry p reason held k =
      { s with
        au := { s.au with tables := s.au.tables.set p (s.au.tables[p].set k.code none) }
        zones
        mlc := Mlc.enqueue (removedNotice p reason held s.tb occurrences k) s.mlc } := by
  obtain ⟨e, he, ho⟩ := Option.map_eq_some_iff.mp h
  refine ⟨((s.setEntry p k none).handToZone p).zones, ?_⟩
  have hpad (a b c : Nat) : padDetail (u8 a ++ u8 b ++ u8 c ++ flag held) = u8 a ++ u8 b ++ u8 c ++ flag held := by
    cases held <;> rfl
  simp only [State.removeEntry, he, State.notice, hpad, ho]
  rfl

/-- The entries of a list of kinds leave one after another, their notices queued in the order of the list. -/
theorem State.foldl_removeEntry (l : List AlertKind) (s : State) (hl : l.Nodup)
    (h : ∀ k ∈ l, (s.entry p k).map AlertEntry.occurrences = some (occurrences k)) :
    ∃ zones : Vector Zone 4, l.foldl (State.removeEntry p reason held) s =
      { s with
        au := { s.au with tables := s.au.tables.set p (tableWithout s.au.tables[p] l) }
        zones
        mlc := l.foldl (fun m k => Mlc.enqueue (removedNotice p reason held s.tb occurrences k) m) s.mlc } := by
  induction l generalizing s with
  | nil => exact ⟨s.zones, by simp [tableWithout]⟩
  | cons k l ih =>
    obtain ⟨hk, hl⟩ := List.nodup_cons.mp hl
    obtain ⟨zones, heq⟩ := State.removeEntry_eq p reason held occurrences (h k List.mem_cons_self)
    have hrest : ∀ k' ∈ l,
        ((s.removeEntry p reason held k).entry p k').map AlertEntry.occurrences = some (occurrences k') := by
      intro k' hk'
      have hne : k' ≠ k := fun e => hk (e ▸ hk')
      rw [← h k' (List.mem_cons_of_mem _ hk'), heq]
      exact congrArg _ (State.setEntry_entry_other s p hne none)
    obtain ⟨zones', heq'⟩ := ih _ hl hrest
    refine ⟨zones', heq'.trans ?_⟩
    rw [heq]
    simp only [getElem_set_same, Vector.set_set]
    rfl

end

/-! ### The end of a hold (R107) -/

/-- A frame between those of a transmission goes out behind some of its data frames, and at once where there is none. -/
theorem State.sendBetween_eq (s : State) (p : Fin 16) (f : FeedFrame) :
    ∃ (choices : Nat) (tx : Option Transmission) (l : List FeedFrame),
      s.sendBetween p f =
        { s with
          choices
          presses := s.presses.set p { s.presses[p] with tx, out := s.presses[p].out ++ l ++ [f] } } ∧
      (s.presses[p].tx = none → l = []) := by
  cases ht : s.presses[p].tx with
  | none =>
    refine ⟨s.choices, none, [], ?_, fun _ => rfl⟩
    simp only [State.sendBetween, State.advanceTx, ht, State.send, State.mapPress, List.append_nil]
  | some t =>
    obtain ⟨c, hc⟩ := (s.anyUpTo_spec (s.dataLeft t)).2
    let n := (s.anyUpTo (s.dataLeft t)).1
    refine ⟨c, some { t with sent := t.sent + n }, s.dataFrames t t.sent n, ?_, nofun⟩
    simp only [State.sendBetween, State.advanceTx, ht, hc, State.sendData, State.send, State.mapPress, getElem_set_same,
      Vector.set_set]
    rfl

/-- A hold that ends clears the held flag and sends RESUME, and the engine may work again. -/
theorem State.holdEnded_eq (s : State) (p : Fin 16) :
    ∃ (choices : Nat) (tx : Option Transmission) (l : List FeedFrame),
      s.holdEnded p =
        ({ s with
          choices
          presses := s.presses.set p
            { s.presses[p] with held := false, tx, out := s.presses[p].out ++ l ++ [.resume] } } : State).engineToRun p ∧
      (s.presses[p].tx = none → l = []) := by
  obtain ⟨choices, tx, l, heq, hl⟩ := (s.mapPress p fun pr => { pr with held := false }).sendBetween_eq p .resume
  simp only [State.mapPress_presses, getElem_set_same, Vector.set_set] at heq hl
  exact ⟨choices, tx, l, congrArg (State.engineToRun · p) heq, hl⟩

/-- Outside RUN the engine then does nothing that another unit or its press sees. -/
theorem State.engineToRun_idle {s : State} (p : Fin 16) (h : s.mlc.mode ≠ .run) :
    ∃ pr : Press, s.engineToRun p = { s with presses := s.presses.set p pr } ∧ pr.path = s.presses[p].path ∧
      pr.out = s.presses[p].out := by
  obtain he | he := State.engineToRun_stopped p h
  · refine ⟨s.presses[p], ?_, rfl, rfl⟩
    rw [he]
    simp
  · exact ⟨_, he, rfl, rfl⟩

theorem Mlc.foldl_enqueue_mode {α : Type} (f : α → Notice) (l : List α) (m : Mlc) :
    (l.foldl (fun m x => Mlc.enqueue (f x) m) m).mode = m.mode := by
  induction l generalizing m with
  | nil => rfl
  | cons x l ih =>
    obtain ⟨-, -, -, hmode, -⟩ := Mlc.enqueue_spec (f x) m
    exact (ih _).trans hmode

/-! ### What the removals of one event leave (R170, R179) -/

/-- The occurrences that a REMOVED notice carries for an entry. -/
def State.occurrences (p : Fin 16) (s : State) (k : AlertKind) : Nat :=
  ((s.entry p k).map AlertEntry.occurrences).getD 0

/-- The state after the entries of the kinds `gone` have left, before the hold ends. -/
def State.withoutEntries (p : Fin 16) (reason : RemovalReason) (held : Bool) (gone : List AlertKind)
    (zones : Vector Zone 4) (s : State) : State :=
  { s with
    au := { s.au with tables := s.au.tables.set p (tableWithout s.au.tables[p] gone) }
    zones
    mlc := gone.foldl (fun m k => Mlc.enqueue (removedNotice p reason held s.tb (s.occurrences p) k) m) s.mlc }

/-- `u` is `s` after the entries of the kinds `gone` have left the table of press `p`, and the hold with the last of them
that held it. -/
structure State.Removed (p : Fin 16) (reason : RemovalReason) (gone : List AlertKind) (s u : State) : Prop where
  au : u.au = { s.au with tables := s.au.tables.set p (tableWithout s.au.tables[p] gone) }
  held : u.presses[p].held = tableHolds (tableWithout s.au.tables[p] gone)
  tb : u.tb = s.tb
  smm : u.smm = s.smm
  store : u.store = s.store
  resumed : s.presses[p].held = true → u.presses[p].held = false →
    ∃ l m, u.presses[p].out = s.presses[p].out ++ l ++ .resume :: m ∧ (s.presses[p].tx = none → l = []) ∧
      (s.mlc.mode ≠ .run → m = [])
  kept : u.presses[p].held = s.presses[p].held → u.presses[p].out = s.presses[p].out
  rest : s.mlc.mode ≠ .run ∨ u.presses[p].held = s.presses[p].held → u.jobs = s.jobs ∧ u.ru = s.ru ∧ u.mu = s.mu ∧
    (∀ q : Fin 16, q ≠ p → u.presses[q] = s.presses[q]) ∧ u.presses[p].path = s.presses[p].path ∧
    u.mlc = gone.foldl
      (fun m k => Mlc.enqueue (removedNotice p reason u.presses[p].held s.tb (s.occurrences p) k) m) s.mlc

section
variable {s u : State} {p : Fin 16} {reason : RemovalReason} {gone : List AlertKind}

theorem State.Removed.entry (a : s.Removed p reason gone u) (k : AlertKind) :
    u.entry p k = if k ∈ gone then none else s.entry p k := by
  simp only [State.entry, a.au, getElem_set_same, tableWithout_get]

theorem State.Removed.other (a : s.Removed p reason gone u) {q : Fin 16} (h : q ≠ p) :
    u.au.tables[q] = s.au.tables[q] := by simp only [a.au, getElem_set_other _ h]

theorem State.Removed.held_table (a : s.Removed p reason gone u) : u.presses[p].held = tableHolds u.au.tables[p] := by
  simp only [a.held, a.au, getElem_set_same]

/-- Where the press is held as before, the entries alone have left. -/
theorem State.withoutEntries_removed (zones : Vector Zone 4)
    (h : s.presses[p].held = tableHolds (tableWithout s.au.tables[p] gone)) :
    s.Removed p reason gone (s.withoutEntries p reason s.presses[p].held gone zones) where
  au := rfl
  held := h
  tb := rfl
  smm := rfl
  store := rfl
  resumed hyes hno := absurd (hyes.symm.trans hno) Bool.noConfusion
  kept _ := rfl
  rest _ := ⟨rfl, rfl, rfl, fun _ _ => rfl, rfl, rfl⟩

/-- Where the last holding entry has left, the hold ends behind the removals. -/
theorem State.holdEnded_removed (zones : Vector Zone 4) (hheld : s.presses[p].held = true)
    (hno : tableHolds (tableWithout s.au.tables[p] gone) = false) :
    s.Removed p reason gone ((s.withoutEntries p reason false gone zones).holdEnded p) := by
  obtain ⟨choices, tx, l, hend, hl⟩ := (s.withoutEntries p reason false gone zones).holdEnded_eq p
  let pr : Press := { s.presses[p] with held := false, tx, out := s.presses[p].out ++ l ++ [.resume] }
  let w : State := { s.withoutEntries p reason false gone zones with choices, presses := s.presses.set p pr }
  have hw : w.presses[p] = pr := getElem_set_same ..
  have hmode : w.mlc.mode = s.mlc.mode := Mlc.foldl_enqueue_mode ..
  have hacted := w.engineToRun_acted p
  have hcleared : (w.engineToRun p).presses[p].held = false := (hacted.held p).trans (congrArg Press.held hw)
  have hmoves : (w.engineToRun p).presses[p].held ≠ s.presses[p].held := by rw [hcleared, hheld]; exact nofun
  obtain ⟨m, hout⟩ := hacted.out p
  rw [hw] at hout
  rw [show (s.withoutEntries p reason false gone zones).holdEnded p = w.engineToRun p from hend]
  exact {
    au := hacted.au
    held := hcleared.trans hno.symm
    tb := hacted.tb
    smm := hacted.smm
    store := hacted.store
    resumed := fun _ _ => by
      refine ⟨l, m, hout.symm.trans (List.append_assoc ..), hl, fun hrun => ?_⟩
      obtain ⟨pr', heq, -, hquiet⟩ := State.engineToRun_idle p (s := w) (hmode ▸ hrun)
      rw [heq, getElem_set_same, hquiet, hw] at hout
      exact List.append_right_eq_self.mp hout
    kept := fun h => absurd h hmoves
    rest := fun h => by
      obtain ⟨pr', heq, hpath, -⟩ := State.engineToRun_idle p (s := w) (hmode ▸ h.resolve_right hmoves)
      rw [hcleared, heq]
      refine ⟨rfl, rfl, rfl, fun q hq => ?_, ?_, rfl⟩
      · simp only [w, getElem_set_other _ hq]
      · simp only [getElem_set_same, hpath, hw, pr] }

/-- The removals of one event, of kinds that have an entry each. -/
theorem State.removeEntries_removed (hholds : s.holdsSound) (hnodup : gone.Nodup)
    (hgone : ∀ k ∈ gone, ∃ e, s.entry p k = some e) : s.Removed p reason gone (s.removeEntries p reason gone) := by
  have hocc : ∀ k ∈ gone, (s.entry p k).map AlertEntry.occurrences = some (s.occurrences p k) := by
    intro k hk
    obtain ⟨e, he⟩ := hgone k hk
    rw [State.occurrences, he]
    rfl
  obtain ⟨zones, hfold⟩ := State.foldl_removeEntry p reason (tableHolds (tableWithout s.au.tables[p] gone))
    (s.occurrences p) gone s hnodup hocc
  by_cases hends : tableHolds s.au.tables[p] = true ∧ tableHolds (tableWithout s.au.tables[p] gone) = false
  · obtain ⟨hbefore, hafter⟩ := hends
    have hremove : s.removeEntries p reason gone = (s.withoutEntries p reason false gone zones).holdEnded p := by
      refine (if_pos (by rw [hbefore, hafter]; rfl)).trans ?_
      rw [hfold, hafter]
      rfl
    rw [hremove]
    exact State.holdEnded_removed zones ((hholds p).trans hbefore) hafter
  · have hkept : s.presses[p].held = tableHolds (tableWithout s.au.tables[p] gone) := by
      rw [hholds p, Bool.eq_iff_iff]
      exact ⟨fun hb => by_contra fun ha => hends ⟨hb, Bool.eq_false_iff.mpr ha⟩, tableHolds_of_without⟩
    have hremove : s.removeEntries p reason gone = s.withoutEntries p reason s.presses[p].held gone zones := by
      refine (if_neg fun h => hends ?_).trans ?_
      · rwa [Bool.and_eq_true, Bool.not_eq_true'] at h
      · rw [hfold, hkept]
        rfl
    rw [hremove]
    exact State.withoutEntries_removed zones hkept

/-! ### The request and the deadline (R176, R177) -/

/-- The kinds that ALERT_CLEAR removes have an entry each. -/
theorem State.clearable_entry {l : List AlertKind} {k : AlertKind} (h : k ∈ s.clearable p l) :
    ∃ e, s.entry p k = some e := by
  have hk := (List.mem_filter.mp h).2
  cases he : s.entry p k with
  | none => simp [he] at hk
  | some e => exact ⟨e, rfl⟩

theorem exec_alertClear (tag : Byte) {n : Nat} (ht : s.takes = true) (hn : n < 65536) :
    exec (.alertClear tag (u8 p.val ++ u16 n)) s =
      .next ((alertClearAt p (kindSetOf n) s).state.reply 0x4A tag .ok (alertClearAt p (kindSetOf n) s).body) := by
  change Host.Outcome.next (takeRequest 0x4A tag false (alertClear (u8 p.val ++ u16 n)) s) = _
  have hown : alertClear (u8 p.val ++ u16 n) s = alertClearAt p (kindSetOf n) s := by
    simp only [u8, u16, List.cons_append, List.nil_append, alertClear, toFin?_pressByte, be16_u16 n hn]
  rw [takeRequest_taken _ _ _ _ _ ht, hown]
  rfl

theorem State.retryDue_eq {k : AlertKind} {e : AlertEntry} {t : Time} (he : s.entry p k = some e)
    (hs : e.state = .retryWait) (hd : e.deadline = some t) : s.retryDue p k = reached s.tb t := by
  simp only [State.retryDue, he, hs, hd, State.due, decide_true, Bool.true_and]

/-- Settles O48: ALERT_CLEAR and a retry deadline reached both remove entries that are there, with what follows. -/
theorem entriesRemovedWhenCleared : Obligations.EntriesRemovedWhenCleared := by
  intro p s hholds pr removes
  have hremoves (reason : RemovalReason) (gone : List AlertKind) (u : State) (a : s.Removed p reason gone u) :
      removes reason.code gone u :=
    ⟨fun k hk => by rw [a.entry, if_pos hk], fun k hk => by rw [a.entry, if_neg hk], by rw [a.au],
      fun q hq => a.other hq, a.held_table, a.tb, a.smm, a.store, a.resumed, a.kept, a.rest⟩
  refine ⟨fun tag n ht hn => ?_, fun k e t he hs hd => ⟨fun hr => ?_, fun hr => ?_⟩⟩
  · intro named gone
    have hgone : gone = s.clearable p named := List.filter_congr fun k _ => by cases s.entry p k <;> rfl
    let u := s.removeEntries p .cleared (s.clearable p named)
    have a : s.Removed p .cleared (s.clearable p named) u :=
      State.removeEntries_removed hholds ((kindSetOf_nodup n).filter _) fun k hk => State.clearable_entry hk
    have hu : removes 1 (s.clearable p named) u := hremoves .cleared _ u a
    rw [hgone]
    refine ⟨u, hu, (exec_alertClear tag ht hn).trans ?_⟩
    refine congrArg (fun outcome => Host.Outcome.next (State.reply 0x4A tag .ok
      (u8 named.length ++ named.flatMap outcome ++ flag u.presses[p].held) u)) (funext fun k => ?_)
    rw [State.clearOutcome]
    cases s.entry p k with
    | none => rfl
    | some e => by_cases hs : e.state = .active <;> simp [AlertEntry.clearable, hs]
  · have hgone : ∀ k' ∈ [k], ∃ e, s.entry p k' = some e := by
      intro k' hk'
      rw [List.mem_singleton.mp hk']
      exact ⟨e, he⟩
    let u := s.removeEntries p .expired [k]
    have a : s.Removed p .expired [k] u := State.removeEntries_removed hholds (List.nodup_singleton k) hgone
    have hu : removes 0 [k] u := hremoves .expired _ u a
    refine ⟨u, congrArg Host.Outcome.next (if_pos ?_), hu⟩
    rw [State.retryDue_eq he hs hd, hr]
  · refine congrArg Host.Outcome.next (if_neg ?_)
    rw [State.retryDue_eq he hs hd, hr]
    exact Bool.false_ne_true

end

end Sys2Proof.Machine
end

section
/-! Plans and the sheet charge (R114 to R122): the fields of a body read at their places, so that PLAN_SET reads a plan back
as it was sent, and the five pricing stages with their bounds. -/

namespace Sys2Proof.Machine

/-! ### Fields at their places in a body (R211) -/

theorem byteAt_append (l m : List Byte) (k : Nat) : byteAt (l ++ m) (l.length + k) = byteAt m k := by
  rw [byteAt, byteAt, List.getD_append_right _ _ _ _ (Nat.le_add_right ..), Nat.add_sub_cancel_left]

theorem half_append (l m : List Byte) (k : Nat) : half (l ++ m) (l.length + k) = half m k := by
  simp only [half, Nat.add_assoc, byteAt_append]

theorem word_append (l m : List Byte) (k : Nat) : word (l ++ m) (l.length + k) = word m k := by
  simp only [word, Nat.add_assoc, byteAt_append]

/-! ### The PLAN_SET body (R115) -/

/-- The four prices of a row fit their fields (R114). -/
def PriceRow.Fits (r : PriceRow) : Prop := r.paper < 65536 ∧ r.mono < 65536 ∧ r.base < 65536 ∧ r.rate < 65536

/-- Every field of a plan fits its bytes (R114, R115). -/
structure Plan.Fits (pl : Plan) : Prop where
  rows : ∀ g : Fin 8, pl.rows[g].Fits
  t1 : pl.t1 < 4294967296
  t2 : pl.t2 < 4294967296
  t3 : pl.t3 < 4294967296
  d1 : pl.d1 < 65536
  d2 : pl.d2 < 65536
  d3 : pl.d3 < 65536
  minimum : pl.minimum < 65536

/-- A row's four prices at their place read back as the row. -/
theorem planRow_bytes {r : PriceRow} (h : r.Fits) (g : Fin 8) (before after : List Byte)
    (hplace : before.length = 1 + 8 * g.val) : planRow (before ++ (r.bytes ++ after)) g = r := by
  obtain ⟨hpaper, hmono, hbase, hrate⟩ := h
  have at_place (k : Nat) (n : Nat) (hk : n = 1 + 8 * g.val + k) :
      half (before ++ (r.bytes ++ after)) n = half (r.bytes ++ after) k := by
    rw [hk, ← hplace, half_append]
  have hp := (at_place 0 (1 + 8 * g.val) (by omega)).trans (be16_u16 r.paper hpaper)
  have hm := (at_place 2 (3 + 8 * g.val) (by omega)).trans (be16_u16 r.mono hmono)
  have hb := (at_place 4 (5 + 8 * g.val) (by omega)).trans (be16_u16 r.base hbase)
  have hr := (at_place 6 (7 + 8 * g.val) (by omega)).trans (be16_u16 r.rate hrate)
  rw [planRow, hp, hm, hb, hr]

theorem priceRows_length (l : List PriceRow) : (l.flatMap PriceRow.bytes).length = 8 * l.length := by
  induction l with
  | nil => rfl
  | cons r l ih =>
    have hr : r.bytes.length = 8 := rfl
    rw [List.flatMap_cons, List.length_append, ih, hr, List.length_cons]
    omega

/-- The bytes of a plan's rows, cut at the row of a grade. -/
theorem Plan.rowBytes_split (pl : Plan) (g : Fin 8) :
    ∃ before after, pl.rows.toList.flatMap PriceRow.bytes = before ++ (pl.rows[g].bytes ++ after) ∧
      before.length = 8 * g.val := by
  have hg : g.val < pl.rows.toList.length := by simp
  refine ⟨(pl.rows.toList.take g.val).flatMap PriceRow.bytes,
    (pl.rows.toList.drop (g.val + 1)).flatMap PriceRow.bytes, ?_, ?_⟩
  · have hcut := List.take_append_drop g.val pl.rows.toList
    rw [List.drop_eq_getElem_cons hg] at hcut
    rw [← List.flatMap_cons, ← List.flatMap_append]
    exact congrArg _ hcut.symm
  · rw [priceRows_length, List.length_take, Nat.min_eq_left hg.le]

/-- The fields of a plan behind its rows. -/
def Plan.figureBytes (pl : Plan) : List Byte :=
  u32 pl.t1 ++ u32 pl.t2 ++ u32 pl.t3 ++ u16 pl.d1 ++ u16 pl.d2 ++ u16 pl.d3 ++ u16 pl.minimum

theorem Plan.bytes_eq (pl : Plan) : pl.bytes = pl.rows.toList.flatMap PriceRow.bytes ++ pl.figureBytes := by
  simp only [Plan.bytes, Plan.figureBytes, List.append_assoc]

theorem Plan.rowBytes_length (pl : Plan) : (pl.rows.toList.flatMap PriceRow.bytes).length = 64 := by
  rw [priceRows_length, Vector.length_toList]

theorem Plan.bytes_length (pl : Plan) : pl.bytes.length = 84 := by
  rw [pl.bytes_eq, List.length_append, pl.rowBytes_length]
  rfl

/-- What a host sends for a plan is read as its fields. -/
theorem planBody_bytes {pl : Plan} (h : pl.Fits) (b : Byte) : planBody (b :: pl.bytes) = pl := by
  have hrows : Vector.ofFn (planRow (b :: pl.bytes)) = pl.rows := by
    refine Vector.ext fun i hi => ?_
    obtain ⟨before, after, hcut, hplace⟩ := pl.rowBytes_split ⟨i, hi⟩
    have hbody : b :: pl.bytes = (b :: before) ++ (pl.rows[i].bytes ++ (after ++ pl.figureBytes)) := by
      rw [pl.bytes_eq, hcut]
      simp only [List.cons_append, List.append_assoc]
      rfl
    rw [Vector.getElem_ofFn, hbody]
    exact planRow_bytes (h.rows ⟨i, hi⟩) ⟨i, hi⟩ _ _ (by rw [List.length_cons, hplace, Nat.add_comm])
  have hhead : (b :: pl.rows.toList.flatMap PriceRow.bytes).length = 65 := by
    rw [List.length_cons, pl.rowBytes_length]
  have hbody : b :: pl.bytes = (b :: pl.rows.toList.flatMap PriceRow.bytes) ++ pl.figureBytes := by
    rw [pl.bytes_eq, List.cons_append]
  have hword (k : Nat) : word (b :: pl.bytes) (65 + k) = word pl.figureBytes k := by
    rw [hbody, ← hhead, word_append]
  have hhalf (k : Nat) : half (b :: pl.bytes) (65 + k) = half pl.figureBytes k := by
    rw [hbody, ← hhead, half_append]
  have ht1 := (hword 0).trans (be32_u32 pl.t1 h.t1)
  have ht2 := (hword 4).trans (be32_u32 pl.t2 h.t2)
  have ht3 := (hword 8).trans (be32_u32 pl.t3 h.t3)
  have hd1 := (hhalf 12).trans (be16_u16 pl.d1 h.d1)
  have hd2 := (hhalf 14).trans (be16_u16 pl.d2 h.d2)
  have hd3 := (hhalf 16).trans (be16_u16 pl.d3 h.d3)
  have hmin := (hhalf 18).trans (be16_u16 pl.minimum h.minimum)
  rw [planBody, hrows, ht1, ht2, ht3, hd1, hd2, hd3, hmin]

/-! ### PLAN_SET and PLAN_QUERY (R115 to R117) -/

/-- Check 5 of R115 by pairs: of any two thresholds that are not 0 the later is the larger. -/
theorem ascends_iff (a b c : Nat) :
    ascends [a, b, c] = true ↔
      (a ≠ 0 → b ≠ 0 → a < b) ∧ (a ≠ 0 → c ≠ 0 → a < c) ∧ (b ≠ 0 → c ≠ 0 → b < c) := by
  simp [ascends, List.pairwise_filter, and_assoc]
  tauto

theorem Plan.sound_iff (pl : Plan) :
    pl.sound = true ↔ (∀ g : Fin 8, pl.rows[g].rate ≤ 2000) ∧ ascends [pl.t1, pl.t2, pl.t3] = true := by
  rw [Plan.sound, Bool.and_eq_true, List.all_eq_true]
  refine and_congr_left fun _ => ⟨fun h g => of_decide_eq_true (h _ (by simp)), fun h r hr => ?_⟩
  obtain ⟨i, hi, rfl⟩ := List.getElem_of_mem hr
  exact decide_eq_true (h ⟨i, by simpa using hi⟩)

theorem toFin?_planByte (i : Fin 8) : toFin? 8 (BitVec.ofNat 8 i.val : Byte).toNat = some i := by
  rw [byte_index 8 i (by omega), toFin?_val]

/-- A PLAN_SET of a sound plan writes it with its rates clamped. -/
theorem planSet_bytes {pl : Plan} (hfits : pl.Fits) (hsound : pl.sound = true) (i : Fin 8) (s : State) :
    planSet (u8 i.val ++ pl.bytes) s = accept (planReply i pl) (s.mapMu (Mu.setPlan i pl.clamped)) := by
  have hlen : ¬ (u8 i.val ++ pl.bytes).length ≠ planLength := by
    rw [List.length_append, pl.bytes_length]
    exact fun h => h rfl
  have hi : toFin? 8 (byteAt (u8 i.val ++ pl.bytes) 0).toNat = some i := toFin?_planByte i
  have hbody : planBody (u8 i.val ++ pl.bytes) = pl := planBody_bytes hfits _
  simp only [planSet, if_neg hlen, hi, hbody, hsound, if_true]

theorem planQuery_byte (i : Fin 8) (s : State) :
    planQuery (u8 i.val) s = accept (s.mu.plans[i].bytes ++ u16 (s.mu.usersOf i)) s := by
  simp only [u8, planQuery, toFin?_planByte]

/-- Settles O39: the plan reads back from its body and passes the checks, so it is written clamped; the query carries it. -/
theorem plansWrittenAndReported : Obligations.PlansWrittenAndReported := by
  intro tag i s ht bytes
  refine ⟨fun pl hrows ht1 ht2 ht3 hd1 hd2 hd3 hmin h12 h13 h23 => ?_, ?_⟩
  · have hrate (g : Fin 8) : pl.rows[g].rate ≤ 2000 := by
      obtain ⟨-, -, -, h⟩ := hrows g
      exact h
    have hfits : pl.Fits := by
      refine ⟨fun g => ?_, ht1, ht2, ht3, hd1, hd2, hd3, hmin⟩
      obtain ⟨hpaper, hmono, hbase, -⟩ := hrows g
      exact ⟨hpaper, hmono, hbase, (hrate g).trans_lt (by omega)⟩
    have hsound : pl.sound = true := pl.sound_iff.mpr ⟨hrate, (ascends_iff _ _ _).mpr ⟨h12, h13, h23⟩⟩
    change Host.Outcome.next (takeRequest 0x30 tag false (planSet (u8 i.val ++ pl.bytes)) s) = _
    rw [takeRequest_taken _ _ _ _ _ ht, planSet_bytes hfits hsound]
    rfl
  · change Host.Outcome.next (takeRequest 0x31 tag false (planQuery (u8 i.val)) s) = _
    rw [takeRequest_taken _ _ _ _ _ ht, planQuery_byte]
    rfl

/-! ### The stages of the sheet charge (R119 to R122) -/

/-- Stage 1: the price of a face by its ink (R119). -/
theorem facePrice_eq (r : PriceRow) (f : PricedFace) :
    facePrice r f.1 f.2 = if f.1 = .mono then r.mono else r.base + r.rate * f.2 := by
  obtain ⟨ink, coverage⟩ := f
  cases ink <;> rfl

/-- The price ranges of R114 as the bounds of the charge use them. -/
structure PriceRow.InRange (r : PriceRow) : Prop where
  paper : r.paper ≤ 65535
  mono : r.mono ≤ 65535
  base : r.base ≤ 65535
  rate : r.rate ≤ 2000

theorem facePrice_le {r : PriceRow} (h : r.InRange) (ink : Ink) {coverage : Nat} (hc : coverage ≤ 100) :
    facePrice r ink coverage ≤ 265535 := by
  cases ink with
  | mono => exact h.mono.trans (by omega)
  | color =>
    have hcolor : r.rate * coverage ≤ 2000 * 100 := Nat.mul_le_mul h.rate hc
    have hbase := h.base
    rw [facePrice]
    omega

/-- A missing second face adds nothing, and one that is there a face price (R120). -/
theorem facePrice?_le {r : PriceRow} (h : r.InRange) {f : Option PricedFace} (hc : ∀ x, f = some x → x.2 ≤ 100) :
    facePrice? r f ≤ 265535 := by
  cases f with
  | none => exact Nat.zero_le _
  | some x => exact facePrice_le h x.1 (hc x rfl)

theorem Plan.tier_three {pl : Plan} {q : Nat} (h : pl.t3 ≠ 0 ∧ pl.t3 ≤ q) : pl.tier q = 3 := if_pos h

theorem Plan.tier_two {pl : Plan} {q : Nat} (h3 : ¬ (pl.t3 ≠ 0 ∧ pl.t3 ≤ q)) (h2 : pl.t2 ≠ 0 ∧ pl.t2 ≤ q) :
    pl.tier q = 2 := by rw [Plan.tier, if_neg h3, if_pos h2]

theorem Plan.tier_one {pl : Plan} {q : Nat} (h3 : ¬ (pl.t3 ≠ 0 ∧ pl.t3 ≤ q)) (h2 : ¬ (pl.t2 ≠ 0 ∧ pl.t2 ≤ q))
    (h1 : pl.t1 ≠ 0 ∧ pl.t1 ≤ q) : pl.tier q = 1 := by rw [Plan.tier, if_neg h3, if_neg h2, if_pos h1]

theorem Plan.tier_zero {pl : Plan} {q : Nat} (h3 : ¬ (pl.t3 ≠ 0 ∧ pl.t3 ≤ q)) (h2 : ¬ (pl.t2 ≠ 0 ∧ pl.t2 ≤ q))
    (h1 : ¬ (pl.t1 ≠ 0 ∧ pl.t1 ≤ q)) : pl.tier q = 0 := by rw [Plan.tier, if_neg h3, if_neg h2, if_neg h1]

/-- Rates of at most 500 thousandths stay so for every tier (R116). -/
theorem Plan.rateOf_le {pl : Plan} (h1 : pl.d1 ≤ 500) (h2 : pl.d2 ≤ 500) (h3 : pl.d3 ≤ 500) (k : Nat) :
    pl.rateOf k ≤ 500 := by
  unfold Plan.rateOf
  split
  · exact h1
  · exact h2
  · exact h3
  · exact Nat.zero_le _

/-- A rate of at most 500 thousandths takes at most half (R122). -/
theorem discountOf_le {rate : Nat} (h : rate ≤ 500) (gross : Nat) : 2 * discountOf gross rate ≤ gross := by
  have hmul : gross * rate ≤ gross * 500 := Nat.mul_le_mul_left _ h
  rw [discountOf]
  omega

/-- Settles O40: the tier decides the rate; the prices' ranges bound the gross price, and the rates' bound the discount. -/
theorem sheetChargeFollowsStages : Obligations.SheetChargeFollowsStages := by
  intro pl g f1 f2 q row price gross reaches
  have hprice (f : PricedFace) : price f = facePrice row f.1 f.2 := (facePrice_eq row f).symm
  have hgross : gross = row.paper + facePrice row f1.1 f1.2 + facePrice? row f2 := by
    simp only [gross, hprice]
    cases f2 <;> rfl
  have hcharge : pl.charge g f1 f2 q = gross - discountOf gross (pl.rateOf (pl.tier q)) := by rw [hgross]; rfl
  refine ⟨fun h3 => ?_, fun h3 h2 => ?_, fun h3 h2 h1 => ?_, fun h3 h2 h1 => ?_,
    fun hpaper hmono hbase hrate hc1 hc2 hd1 hd2 hd3 => ?_⟩
  · rw [hcharge, Plan.tier_three h3]; rfl
  · rw [hcharge, Plan.tier_two h3 h2]; rfl
  · rw [hcharge, Plan.tier_one h3 h2 h1]; rfl
  · rw [hcharge, Plan.tier_zero h3 h2 h1]
    simp [Plan.rateOf, discountOf]
  · have hrow : row.InRange := ⟨hpaper, hmono, hbase, hrate⟩
    have hface := facePrice_le hrow f1.1 hc1
    have hsecond := facePrice?_le hrow hc2
    have hdiscount := discountOf_le (pl.rateOf_le hd1 hd2 hd3 (pl.tier q)) gross
    rw [hcharge, hprice]
    refine ⟨hface, fun hnone => ?_, by omega, by omega, by omega, by omega⟩
    have hno : facePrice? row f2 = 0 := by rw [hnone]; rfl
    omega

end Sys2Proof.Machine
end

section
/-! CHARGE_QUOTE (R125, R126): the body of each source form reads back, and the reply carries every figure of the stages. -/

namespace Sys2Proof.Machine

/-! ### The body (R125) -/

/-- A face of a quote as a host sends it: ink and coverage. -/
abbrev SentFace := Ink × Byte

/-- Its two bytes in a body (R125). -/
def SentFace.bytes (f : SentFace) : List Byte := u8 f.1.code ++ [f.2]

/-- The face as the body is read. -/
def SentFace.read (f : SentFace) : QuoteFace := ⟨BitVec.ofNat 8 f.1.code, f.2.toNat⟩

/-- The face as it is priced: a COLOR coverage above 100 as 100, a MONO coverage as none (R125). -/
def SentFace.priced (f : SentFace) : PricedFace := (f.1, if f.1 = .color then min 100 f.2.toNat else 0)

/-- The face as it is quoted: as priced, and whether a COLOR coverage was clamped. -/
def SentFace.quoted (f : SentFace) : QuotedFace := ⟨f.priced, decide (f.1 = .color) && decide (100 < f.2.toNat)⟩

theorem SentFace.read_quoted (f : SentFace) : f.read.quoted = some f.quoted := by
  obtain ⟨ink, coverage⟩ := f
  simp only [SentFace.read, QuoteFace.quoted, ink?_code]
  cases ink <;> rfl

/-- A quoted face in the reply: the applied coverage, and the clamped flag of a COLOR face (R126). -/
theorem SentFace.quoted_bytes (f : SentFace) :
    f.quoted.bytes = u8 f.priced.2 ++ if f.1 = .color then flag (decide (100 < f.2.toNat)) else [] := by
  obtain ⟨ink, coverage⟩ := f
  cases ink <;> rfl

theorem quoteFaces_bytes (l : List SentFace) : quoteFaces (l.flatMap SentFace.bytes) = some (l.map SentFace.read) := by
  induction l with
  | nil => rfl
  | cons f l ih =>
    have hcons : (f :: l).flatMap SentFace.bytes = BitVec.ofNat 8 f.1.code :: f.2 :: l.flatMap SentFace.bytes := rfl
    rw [hcons, quoteFaces, ih]
    rfl

/-- What follows the source of a quote: grade, face count and faces. -/
def quoteTail (g : Fin 8) (faces : List SentFace) : List Byte :=
  u8 g.val ++ u8 faces.length ++ faces.flatMap SentFace.bytes

theorem quoteRest_tail (source : QuoteSource) (g : Fin 8) {faces : List SentFace} (h : faces.length < 256) :
    quoteRest source (quoteTail g faces) = some { source, grade := g.val, faces := faces.map SentFace.read } := by
  have hg : (BitVec.ofNat 8 g.val : Byte).toNat = g.val := byte_index 8 g (by omega)
  have hcount : (faces.map SentFace.read).length = (BitVec.ofNat 8 faces.length : Byte).toNat := by
    rw [List.length_map, byte_toNat, Nat.mod_eq_of_lt h]
  simp only [quoteTail, u8, List.cons_append, List.nil_append, quoteRest, quoteFaces_bytes, hg, if_pos hcount]

/-- Source form 0 is an account number of two bytes. -/
theorem quoteBody_accountForm {a1 a0 : Byte} {l : List Byte} {b : QuoteBody}
    (h : quoteRest (.account (be16 a1 a0)) l = some b) : quoteBody (0 :: a1 :: a0 :: l) = .ok b := by
  simp [quoteBody, h]

/-- Source form 1 is a plan number and a period face count of four bytes. -/
theorem quoteBody_planForm {p q3 q2 q1 q0 : Byte} {l : List Byte} {b : QuoteBody}
    (h : quoteRest (.plan p.toNat (be32 q3 q2 q1 q0)) l = some b) :
    quoteBody (1 :: p :: q3 :: q2 :: q1 :: q0 :: l) = .ok b := by
  simp [quoteBody, h]

theorem quoteBody_account (a : Fin 256) (g : Fin 8) {faces : List SentFace} (h : faces.length < 256) :
    quoteBody (u8 0 ++ u16 a.val ++ quoteTail g faces) =
      .ok { source := .account a.val, grade := g.val, faces := faces.map SentFace.read } := by
  refine quoteBody_accountForm ?_
  rw [be16_u16 a.val (by omega)]
  exact quoteRest_tail _ g h

theorem quoteBody_plan (i : Fin 8) {q : Nat} (hq : q < 4294967296) (g : Fin 8) {faces : List SentFace}
    (h : faces.length < 256) :
    quoteBody (u8 1 ++ u8 i.val ++ u32 q ++ quoteTail g faces) =
      .ok { source := .plan i.val q, grade := g.val, faces := faces.map SentFace.read } := by
  refine quoteBody_planForm ?_
  rw [byte_index 8 i (by omega), be32_u32 q hq]
  exact quoteRest_tail _ g h

/-- One face or two, with their inks sound, are quoted as sent (R125 check 3). -/
theorem quotedFaces_read (f1 : SentFace) (f2 : Option SentFace) :
    quotedFaces ((f1 :: f2.toList).map SentFace.read) = some (f1.quoted, f2.map SentFace.quoted) := by
  cases f2 <;> simp [quotedFaces, SentFace.read_quoted]

theorem SentFace.count_lt (f1 : SentFace) (f2 : Option SentFace) : (f1 :: f2.toList).length < 256 := by
  cases f2 <;> simp

/-! ### The reply (R126) -/

/-- The plan form answers the figures of its plan at its period face count, and changes nothing. -/
theorem chargeQuote_plan (i : Fin 8) {q : Nat} (hq : q < 4294967296) (g : Fin 8) (f1 : SentFace)
    (f2 : Option SentFace) (s : State) :
    chargeQuote (u8 1 ++ u8 i.val ++ u32 q ++ quoteTail g (f1 :: f2.toList)) s =
      accept (quoteFigures i s.mu.plans[i] q g f1.quoted (f2.map SentFace.quoted)) s := by
  simp only [chargeQuote, quoteBody_plan i hq g (f1.count_lt f2), quoteChecked, toFin?_val, quotedFaces_read]

/-- The account form answers the figures of the account's plan at its own count, and what the account could pay. -/
theorem chargeQuote_account {a : Fin 256} {s : State} (h : s.mu.accounts[a].present = true) (g : Fin 8)
    (f1 : SentFace) (f2 : Option SentFace) :
    let acc := s.mu.accounts[a]
    let pl := s.planOf a
    let y := f2.map SentFace.quoted
    chargeQuote (u8 0 ++ u16 a.val ++ quoteTail g (f1 :: f2.toList)) s =
      accept (quoteFigures acc.plan pl acc.faces g f1.quoted y ++
        quoteAccount acc (pl.charge g f1.priced (y.map QuotedFace.face) acc.faces)) s := by
  simp only [chargeQuote, quoteBody_account a g (f1.count_lt f2), quoteChecked, toFin?_val, quotedFaces_read,
    quoteForAccount, h, if_true]
  rfl

/-- A counted list of one element or two. -/
theorem list8_oneOrTwo {α : Type} (f : α → List Byte) (a b : α) (two : Bool) :
    list8 f (a :: (if two then some b else none).toList) =
      u8 (if two then 2 else 1) ++ f a ++ if two then f b else [] := by
  cases two <;> simp [list8]

/-- Settles O41: the body reads back, and the figures of its reply are those of the stages, for one face and for two. -/
theorem chargeQuoteReports : Obligations.ChargeQuoteReports := by
  intro tag g ink1 ink2 cov1 cov2 two s ht applied f1 f2 second shown figures rest
  let sent : Option SentFace := if two then some (ink2, cov2) else none
  let x := SentFace.quoted (ink1, cov1)
  let y : Option QuotedFace := if two then some (SentFace.quoted (ink2, cov2)) else none
  have hquoted : sent.map SentFace.quoted = y := by cases two <;> rfl
  have hface : y.map QuotedFace.face = second := by cases two <;> rfl
  have hrest : rest = quoteTail g ((ink1, cov1) :: sent.toList) := by cases two <;> rfl
  have hshown (ink : Ink) (cov : Byte) : (SentFace.quoted (ink, cov)).bytes = shown ink cov :=
    SentFace.quoted_bytes (ink, cov)
  have hfigures (i : Fin 8) (pl : Plan) (q : Nat) : quoteFigures i pl q g x y = figures i pl q := by
    rw [quoteFigures, hface]
    simp only [x, y, list8_oneOrTwo, hshown, figures, List.append_assoc]
    rfl
  refine ⟨fun i q hq => ?_, ?_⟩
  · change Host.Outcome.next (takeRequest 0x38 tag false (chargeQuote (u8 1 ++ u8 i.val ++ u32 q ++ rest)) s) = _
    rw [takeRequest_taken _ _ _ _ _ ht, hrest, chargeQuote_plan i hq, hquoted, ← hfigures]
    rfl
  · intro a ha acc pl net
    have hpresent : acc.present = true := decide_eq_true ha
    have hgrants : acc.grants net = decide (acc.state = .opened ∧ (net : Int) ≤ acc.balance - acc.held + acc.limit) :=
      Bool.eq_iff_iff.mpr ((acc.grants_iff net).trans decide_eq_true_iff.symm)
    change Host.Outcome.next (takeRequest 0x38 tag false (chargeQuote (u8 0 ++ u16 a.val ++ rest)) s) = _
    rw [takeRequest_taken _ _ _ _ _ ht, hrest, chargeQuote_account hpresent, hquoted, hface, ← hfigures, ← hgrants,
      List.append_assoc]
    rfl

end Sys2Proof.Machine
end

section
/-! The books of the part: accounts, path lists and applied windows, which are all that the law of held amounts and the
law of availability (R129) speak of. What writing one account, and what an entry that joins or leaves a path, does to
both laws. -/

namespace Sys2Proof.Machine

/-! ### The books and their two laws -/

/-- Accounts, path lists and applied windows. -/
structure Books where
  account : Fin 256 → Account
  path : Fin 16 → List PathEntry
  window : Fin 16 → Nat

/-- The books of a state. -/
def State.books (s : State) : Books where
  account a := s.mu.accounts[a]
  path p := s.presses[p].path
  window p := s.presses[p].window

/-- The charges of the entries of one path that bill to an account. -/
def billed (a : Fin 256) (l : List PathEntry) : Int :=
  ((l.filter fun e => decide (e.account = a)).map fun e => (e.charge : Int)).sum

/-- The charges in flight of an account, over the paths of all presses. -/
def Books.charges (b : Books) (a : Fin 256) : Int := ∑ p, billed a (b.path p)

/-- The law of held amounts (R129) with what it rests on: short paths of distinct tags, and windows that keep them
short. -/
structure Books.Lawful (b : Books) : Prop where
  short : ∀ p, (b.path p).length ≤ 8
  window : ∀ p, b.window p ≤ 8
  tags : ∀ p, ((b.path p).map PathEntry.tag).Nodup
  held : ∀ a, (b.account a).held = b.charges a
  absent : ∀ a, (b.account a).state = .absent → (b.account a).held = 0

/-- The law of availability (R129). -/
def Books.InCredit (b : Books) : Prop := ∀ a, (b.account a).state ≠ .absent → 0 ≤ (b.account a).availability

/-- The charges in flight of a state are added up press by press. -/
theorem State.chargesOf_eq (s : State) (a : Fin 256) : s.chargesOf a = s.books.charges a := by
  have hpresses : s.presses.toList = (List.finRange 16).map fun p => s.presses[p] := by
    apply List.ext_getElem <;> simp
  rw [Books.charges, Fin.sum_univ_def, State.chargesOf, State.entriesOf, hpresses, List.flatMap_map, List.map_flatMap,
    List.flatMap, List.sum_flatten, List.map_map]
  rfl

theorem State.heldSound_iff (s : State) : s.heldSound ↔ s.books.Lawful := by
  constructor
  · rintro ⟨hpaths, haccounts⟩
    obtain ⟨hshort, hwindow, htags⟩ := forall_and.mp hpaths |>.imp_right forall_and.mp
    obtain ⟨hheld, habsent⟩ := forall_and.mp haccounts
    exact ⟨hshort, hwindow, htags, fun a => (hheld a).trans (s.chargesOf_eq a), habsent⟩
  · intro h
    exact ⟨fun p => ⟨h.short p, h.window p, h.tags p⟩,
      fun a => ⟨(h.held a).trans (s.chargesOf_eq a).symm, h.absent a⟩⟩

theorem State.creditSound_iff (s : State) : s.creditSound ↔ s.books.Lawful ∧ s.books.InCredit :=
  and_congr s.heldSound_iff Iff.rfl

/-! ### Charges of one path -/

theorem billed_append (a : Fin 256) (l m : List PathEntry) : billed a (l ++ m) = billed a l + billed a m := by
  simp [billed]

theorem billed_singleton (a : Fin 256) (e : PathEntry) :
    billed a [e] = if e.account = a then (e.charge : Int) else 0 := by
  by_cases h : e.account = a <;> simp [billed, h]

theorem billed_nonneg (a : Fin 256) (l : List PathEntry) : 0 ≤ billed a l :=
  List.sum_nonneg fun _ hx => by
    obtain ⟨e, -, rfl⟩ := List.mem_map.mp hx
    exact Int.natCast_nonneg e.charge

theorem Books.charges_nonneg (b : Books) (a : Fin 256) : 0 ≤ b.charges a :=
  Finset.sum_nonneg fun _ _ => billed_nonneg a _

/-- With distinct tags, removing a tag takes away the charge of its one entry. -/
theorem billed_without {l : List PathEntry} {e : PathEntry} (htags : (l.map PathEntry.tag).Nodup) (he : e ∈ l)
    (a : Fin 256) :
    billed a (l.filter fun x => decide (x.tag ≠ e.tag)) + billed a [e] = billed a l := by
  have hone : l.filter (fun x => decide (x.tag ≠ e.tag)) = l.filter (fun x => decide (x ≠ e)) := by
    refine List.filter_congr fun x hx => ?_
    rw [decide_eq_decide, not_iff_not]
    exact ⟨List.inj_on_of_nodup_map htags hx he, congrArg _⟩
  have herase : l.filter (fun x => decide (x ≠ e)) = l.erase e := by
    rw [htags.of_map.erase_eq_filter]
    exact List.filter_congr fun x _ => by simp [bne, Bool.beq_eq_decide_eq]
  have hperm : (l.erase e ++ [e]).Perm l :=
    List.perm_append_comm.trans (List.perm_cons_erase he).symm
  rw [← billed_append, hone, herase]
  exact ((hperm.filter _).map _).sum_eq

/-- An entry with the tag, account and charge of another. -/
structure PathEntry.SameBill (e x : PathEntry) : Prop where
  tag : x.tag = e.tag
  account : x.account = e.account
  charge : x.charge = e.charge

theorem billed_map {f : PathEntry → PathEntry} (hf : ∀ e : PathEntry, e.SameBill (f e)) (a : Fin 256)
    (l : List PathEntry) : billed a (l.map f) = billed a l := by
  simp only [billed, List.filter_map, List.map_map, Function.comp_def, (hf _).account, (hf _).charge]

/-! ### Writing one account, and one path -/

/-- One account written. -/
def Books.post (b : Books) (a : Fin 256) (acc : Account) : Books :=
  { b with account := Function.update b.account a acc }

/-- One account and one path written. -/
def Books.move (b : Books) (a : Fin 256) (acc : Account) (p : Fin 16) (l : List PathEntry) : Books :=
  { b.post a acc with path := Function.update b.path p l }

theorem Books.charges_move (b : Books) (a : Fin 256) (acc : Account) (p : Fin 16) (l : List PathEntry) (x : Fin 256) :
    (b.move a acc p l).charges x + billed x (b.path p) = b.charges x + billed x l := by
  have hupdate (q : Fin 16) : billed x ((b.move a acc p l).path q) =
      Function.update (fun q => billed x (b.path q)) p (billed x l) q :=
    Function.apply_update (fun _ => billed x) b.path p l q
  simp only [Books.charges, hupdate]
  rw [Finset.sum_update_of_mem (Finset.mem_univ p), ← Finset.add_sum_erase _ (fun q => billed x (b.path q))
    (Finset.mem_univ p), Finset.sdiff_singleton_eq_erase]
  ring

/-- The account written is in credit, and the others as they were. -/
theorem Books.InCredit.post {b : Books} (h : b.InCredit) {a : Fin 256} {acc : Account}
    (hacc : acc.state ≠ .absent → 0 ≤ acc.availability) : (b.post a acc).InCredit := by
  intro x hx
  by_cases hxa : x = a
  · subst hxa
    simp only [Books.post, Function.update_self] at hx ⊢
    exact hacc hx
  · simp only [Books.post, Function.update_of_ne hxa] at hx ⊢
    exact h x hx

theorem Books.Lawful.move {b : Books} (h : b.Lawful) {a : Fin 256} {acc : Account} {p : Fin 16} {l : List PathEntry}
    (hshort : l.length ≤ 8) (htags : (l.map PathEntry.tag).Nodup) (habsent : acc.state = .absent → acc.held = 0)
    (hbills : ∀ x, billed x l - billed x (b.path p) = if a = x then acc.held - (b.account a).held else 0) :
    (b.move a acc p l).Lawful := by
  have hpath (q : Fin 16) : q = p ∧ (b.move a acc p l).path q = l ∨ (b.move a acc p l).path q = b.path q := by
    by_cases hq : q = p
    · subst hq; exact .inl ⟨rfl, Function.update_self ..⟩
    · exact .inr (Function.update_of_ne hq ..)
  have hcharges := b.charges_move a acc p l
  exact {
    short := fun q => by
      obtain ⟨-, e⟩ | e := hpath q <;> rw [e]
      · exact hshort
      · exact h.short q
    window := h.window
    tags := fun q => by
      obtain ⟨-, e⟩ | e := hpath q <;> rw [e]
      · exact htags
      · exact h.tags q
    held := fun x => by
      have hx := hbills x
      have hc := hcharges x
      have hheld := h.held x
      by_cases hxa : x = a
      · subst hxa
        rw [if_pos rfl] at hx
        change (Function.update b.account x acc x).held = _
        rw [Function.update_self]
        omega
      · rw [if_neg (Ne.symm hxa)] at hx
        change (Function.update b.account a acc x).held = _
        rw [Function.update_of_ne hxa]
        omega
    absent := fun x hx => by
      change (Function.update b.account a acc x).held = 0
      change (Function.update b.account a acc x).state = .absent at hx
      by_cases hxa : x = a
      · subst hxa
        rw [Function.update_self] at hx ⊢
        exact habsent hx
      · rw [Function.update_of_ne hxa] at hx ⊢
        exact h.absent x hx }

theorem Books.post_eq_move (b : Books) (a : Fin 256) (acc : Account) (p : Fin 16) :
    b.post a acc = b.move a acc p (b.path p) := by
  simp only [Books.move, Function.update_eq_self]
  rfl

theorem Books.Lawful.post {b : Books} (h : b.Lawful) {a : Fin 256} {acc : Account}
    (hheld : acc.held = (b.account a).held) (habsent : acc.state = .absent → acc.held = 0) :
    (b.post a acc).Lawful := by
  rw [b.post_eq_move a acc 0]
  refine h.move (h.short 0) (h.tags 0) habsent fun x => ?_
  rw [hheld, sub_self, sub_self, ite_self]

/-! ### What operations do to the two laws -/

/-- Both laws pass from one set of books to another. -/
structure Books.Upholds (b c : Books) : Prop where
  lawful : b.Lawful → c.Lawful
  credit : b.Lawful → b.InCredit → c.InCredit

/-- Both laws pass on, and of the entries of press `p` none is lost but those of some tags. -/
structure Books.Loses (p : Fin 16) (tags : List Half) (b c : Books) : Prop extends Books.Upholds b c where
  rest : ∀ e ∈ b.path p, e.tag ∉ tags → e ∈ c.path p

/-- Both laws pass on, and no entry leaves its path. -/
structure Books.Adds (b c : Books) : Prop extends Books.Upholds b c where
  rest : ∀ p, ∀ e ∈ b.path p, e ∈ c.path p

section
variable {b c d : Books}

theorem Books.Upholds.refl (b : Books) : b.Upholds b := ⟨id, fun _ => id⟩

theorem Books.Upholds.trans (x : b.Upholds c) (y : c.Upholds d) : b.Upholds d :=
  ⟨y.lawful ∘ x.lawful, fun h hc => y.credit (x.lawful h) (x.credit h hc)⟩

theorem Books.Upholds.of_eq (h : c = b) : b.Upholds c := h ▸ .refl b

/-- A law may be used to pass the laws on. -/
theorem Books.Upholds.of_lawful (h : b.Lawful → b.Upholds c) : b.Upholds c :=
  ⟨fun hb => (h hb).lawful hb, fun hb => (h hb).credit hb⟩

theorem Books.Adds.refl (b : Books) : b.Adds b := ⟨.refl b, fun _ _ => id⟩

theorem Books.Adds.trans (x : b.Adds c) (y : c.Adds d) : b.Adds d :=
  ⟨x.toUpholds.trans y.toUpholds, fun p e he => y.rest p e (x.rest p e he)⟩

theorem Books.Adds.of_eq (h : c = b) : b.Adds c := h ▸ .refl b

theorem Books.Adds.loses (x : b.Adds c) (p : Fin 16) : b.Loses p [] c := ⟨x.toUpholds, fun e he _ => x.rest p e he⟩

theorem Books.Loses.trans {p : Fin 16} {l m : List Half} (x : b.Loses p l c) (y : c.Loses p m d) :
    b.Loses p (l ++ m) d := by
  refine ⟨x.toUpholds.trans y.toUpholds, fun e he ht => ?_⟩
  rw [List.mem_append, not_or] at ht
  exact y.rest e (x.rest e he ht.1) ht.2

/-- An account written with its held amount as it was. -/
theorem Books.post_adds {a : Fin 256} {acc : Account} (hheld : b.Lawful → acc.held = (b.account a).held)
    (habsent : b.Lawful → acc.state = .absent → acc.held = 0)
    (hcredit : b.Lawful → b.InCredit → acc.state ≠ .absent → 0 ≤ acc.availability) : b.Adds (b.post a acc) where
  lawful h := h.post (hheld h) (habsent h)
  credit h hc := hc.post (hcredit h hc)
  rest _ _ he := he

/-- A window written within its range (R73). -/
theorem Books.window_adds {p : Fin 16} {n : Nat} (hn : b.window p ≤ 8 → n ≤ 8) :
    b.Adds { b with window := Function.update b.window p n } where
  lawful h := {
    short := h.short
    window := fun q => by
      by_cases hq : q = p
      · subst hq
        simpa only [Function.update_self] using hn (h.window q)
      · simpa only [Function.update_of_ne hq] using h.window q
    tags := h.tags
    held := h.held
    absent := h.absent }
  credit _ hc := hc
  rest _ _ he := he

/-- The entries of a path moved on with their tags, accounts and charges. -/
theorem Books.path_upholds {p : Fin 16} {f : PathEntry → PathEntry} (hf : ∀ e : PathEntry, e.SameBill (f e)) :
    b.Upholds { b with path := Function.update b.path p ((b.path p).map f) } where
  lawful h := by
    have hsame (q : Fin 16) : ∃ g : PathEntry → PathEntry, (∀ e : PathEntry, e.SameBill (g e)) ∧
        Function.update b.path p ((b.path p).map f) q = (b.path q).map g := by
      by_cases hq : q = p
      · subst hq
        exact ⟨f, hf, Function.update_self ..⟩
      · exact ⟨id, fun _ => ⟨rfl, rfl, rfl⟩, (Function.update_of_ne hq ..).trans (List.map_id _).symm⟩
    refine ⟨fun q => ?_, h.window, fun q => ?_, fun a => (h.held a).trans (Finset.sum_congr rfl fun q _ => ?_),
      h.absent⟩ <;> obtain ⟨g, hg, hpath⟩ := hsame q <;> simp only [hpath]
    · rw [List.length_map]
      exact h.short q
    · simp only [List.map_map, Function.comp_def, (hg _).tag]
      exact h.tags q
    · exact (billed_map hg a _).symm
  credit _ hc := hc

/-- A reservation and the entry it is for (R95, R136): a charge within the availability of an account that is not
ABSENT. -/
theorem Books.enter_adds {p : Fin 16} {e : PathEntry} {acc : Account} (hroom : (b.path p).length < b.window p)
    (hnew : (b.path p).length ≤ 8 → ∀ x ∈ b.path p, x.tag ≠ e.tag)
    (hheld : acc.held = (b.account e.account).held + e.charge)
    (hpresent : acc.state ≠ .absent) (hcredit : 0 ≤ acc.availability) :
    b.Adds (b.move e.account acc p (b.path p ++ [e])) where
  lawful h := by
    refine h.move ?_ ?_ (fun ha => absurd ha hpresent) fun x => ?_
    · have := h.window p
      rw [List.length_append, List.length_singleton]
      omega
    · rw [List.map_append, List.nodup_append]
      refine ⟨h.tags p, List.nodup_singleton _, fun t ht u hu => ?_⟩
      obtain ⟨x, hx, rfl⟩ := List.mem_map.mp ht
      rw [List.map_singleton, List.mem_singleton] at hu
      exact hu ▸ hnew (h.short p) x hx
    · rw [billed_append, billed_singleton, hheld]
      split <;> omega
  credit _ hc := hc.post fun _ => hcredit
  rest q x hx := by
    change x ∈ Function.update b.path p _ q
    by_cases hq : q = p
    · subst hq
      rw [Function.update_self]
      exact List.mem_append_left _ hx
    · rwa [Function.update_of_ne hq]

/-- An entry gone from its path with its charge gone from its account (R137, R138). -/
theorem Books.leave_loses {p : Fin 16} {e : PathEntry} {acc : Account} (he : e ∈ b.path p)
    (hheld : acc.held = (b.account e.account).held - e.charge) (hstate : acc.state = (b.account e.account).state)
    (hcredit : (b.account e.account).availability ≤ acc.availability) :
    b.Loses p [e.tag] (b.move e.account acc p ((b.path p).filter fun x => decide (x.tag ≠ e.tag))) where
  lawful h := by
    have hwithout := billed_without (h.tags p) he
    have hbills (x : Fin 256) : billed x ((b.path p).filter fun x => decide (x.tag ≠ e.tag)) - billed x (b.path p) =
        if e.account = x then acc.held - (b.account e.account).held else 0 := by
      rw [← hwithout x, billed_singleton, hheld]
      split <;> omega
    refine h.move ((List.length_filter_le ..).trans (h.short p))
      ((List.filter_sublist.map _).nodup (h.tags p)) (fun ha => ?_) hbills
    have hzero := h.absent e.account (hstate ▸ ha)
    have hself := hbills e.account
    rw [if_pos rfl] at hself
    have hnow := b.charges_move e.account acc p ((b.path p).filter fun x => decide (x.tag ≠ e.tag)) e.account
    have hpos := Books.charges_nonneg
      (b.move e.account acc p ((b.path p).filter fun x => decide (x.tag ≠ e.tag))) e.account
    have hall := h.held e.account
    omega
  credit _ hc := hc.post fun ha => (hc e.account (hstate ▸ ha)).trans hcredit
  rest x hx ht := by
    change x ∈ Function.update b.path p _ p
    rw [Function.update_self, List.mem_filter]
    exact ⟨hx, decide_eq_true fun h => ht (List.mem_singleton.mpr h)⟩

end

end Sys2Proof.Machine
end

section
/-! What the operations of the part do to the books: most leave them as they are, a dispatch adds an entry with its
charge reserved, a delivery or a loss takes one out with its charge, and the ends of jobs may bind and dispatch
again. -/

namespace Sys2Proof.Machine

section
variable (s : State)

/-! ### Operations that leave the books -/

/-- What leaves the work of the part leaves its books. -/
theorem State.SameWork.books {s t : State} (h : s.SameWork t) : t.books = s.books := by
  have hpress (p : Fin 16) : t.presses[p].path = s.presses[p].path ∧ t.presses[p].window = s.presses[p].window := by
    obtain ⟨hpath, -, -, -, happlied, -⟩ := h.press p
    exact ⟨hpath, by rw [Press.window, happlied, Press.window]⟩
  simp only [State.books, h.mu, hpress]

@[simp] theorem State.mapMlc_books (f : Mlc → Mlc) : (s.mapMlc f).books = s.books := rfl
@[simp] theorem State.mapSlot_books (i : Fin 64) (f : Slot → Slot) : (s.mapSlot i f).books = s.books := rfl
@[simp] theorem State.mapJob_books (i : Fin 64) (f : Job → Job) : (s.mapJob i f).books = s.books := rfl
@[simp] theorem State.mapSmm_books (f : Smm → Smm) : (s.mapSmm f).books = s.books := rfl
@[simp] theorem State.mapRu_books (f : Ru → Ru) : (s.mapRu f).books = s.books := rfl
@[simp] theorem State.mapStore_books (f : Store → Store) : (s.mapStore f).books = s.books := rfl
@[simp] theorem State.mapZone_books (z : Fin 4) (f : Zone → Zone) : (s.mapZone z f).books = s.books := rfl
@[simp] theorem State.mapMeter_books (p : Fin 16) (f : Meter → Meter) : (s.mapMeter p f).books = s.books := rfl
@[simp] theorem State.notice_books (k : NoticeKind) (a b : Nat) (d : List Byte) :
    (s.notice k a b d).books = s.books := rfl
@[simp] theorem State.dropRequest_books : s.dropRequest.books = s.books := rfl
@[simp] theorem State.markPending_books (p : Fin 16) : (s.markPending p).books = s.books := rfl

/-- A change of one press writes its path and its window. -/
theorem State.mapPress_writes (p : Fin 16) (f : Press → Press) :
    (s.mapPress p f).books = { s.books with
      path := Function.update s.books.path p (f s.presses[p]).path
      window := Function.update s.books.window p (f s.presses[p]).window } := by
  have hget (q : Fin 16) :
      (s.mapPress p f).presses[q] = Function.update (fun q => s.presses[q]) p (f s.presses[p]) q := by
    rw [State.mapPress_get, Function.update_apply]
    simp only [eq_comm (a := p)]
  simp only [State.books, hget, State.mapPress_mu, Function.apply_update (fun _ => Press.path),
    Function.apply_update (fun _ => Press.window)]

/-- A change of one press that keeps its window writes its path. -/
theorem State.mapPress_path_books (p : Fin 16) (f : Press → Press)
    (hwindow : (f s.presses[p]).window = s.presses[p].window) :
    (s.mapPress p f).books =
      { s.books with path := Function.update s.books.path p (f s.presses[p]).path } := by
  rw [State.mapPress_writes, hwindow]
  exact congrArg (Books.mk _ _) (Function.update_eq_self p s.books.window)

/-- A change of one press that keeps its path and window. -/
theorem State.mapPress_books (p : Fin 16) (f : Press → Press) (hpath : (f s.presses[p]).path = s.presses[p].path)
    (hwindow : (f s.presses[p]).window = s.presses[p].window) : (s.mapPress p f).books = s.books := by
  rw [s.mapPress_path_books p f hwindow, hpath]
  exact congrArg (Books.mk _ · _) (Function.update_eq_self p s.books.path)

@[simp] theorem State.markAll_books (l : List (Fin 16)) : (s.markAll l).books = s.books := (s.markAll_sameWork l).books
@[simp] theorem State.send_books (p : Fin 16) (f : FeedFrame) : (s.send p f).books = s.books :=
  (s.send_sameWork p f).books
@[simp] theorem State.sendBetween_books (p : Fin 16) (f : FeedFrame) : (s.sendBetween p f).books = s.books :=
  (s.sendBetween_sameWork p f).books
@[simp] theorem State.stopTx_books (p : Fin 16) : (s.stopTx p).books = s.books := (s.stopTx_sameWork p).books
@[simp] theorem State.refresh_books (p : Fin 16) : (s.refresh p).books = s.books := (s.refresh_sameWork p).books
@[simp] theorem State.derivePattern_books (z : Fin 4) : (s.derivePattern z).books = s.books := rfl
@[simp] theorem State.handToZone_books (p : Fin 16) : (s.handToZone p).books = s.books := rfl
@[simp] theorem State.setEntry_books (p : Fin 16) (k : AlertKind) (e : Option AlertEntry) :
    (s.setEntry p k e).books = s.books := rfl
@[simp] theorem State.alert_books (p : Fin 16) (k : AlertKind) (d : Byte) : (s.alert p k d).books = s.books :=
  (s.raise_sameWork p k d).books
@[simp] theorem State.protocol_books (p : Fin 16) (e : ProtocolError) : (s.protocol p e).books = s.books :=
  (s.raise_sameWork p _ _).books
@[simp] theorem State.conditionEnd_books (p : Fin 16) (k : AlertKind) (d : Option Byte) :
    (s.conditionEnd p k d).books = s.books := (s.conditionEnd_sameWork p k d).books
@[simp] theorem State.raiseStall_books (p : Fin 16) (tag : Half) : (s.raiseStall p tag).books = s.books :=
  (s.raiseStall_sameWork p tag).books
@[simp] theorem State.stallAfterLeave_books (p : Fin 16) (w : Bool) : (s.stallAfterLeave p w).books = s.books :=
  (s.stallAfterLeave_sameWork p w).books
@[simp] theorem State.heard_books (p : Fin 16) : (s.heard p).books = s.books := (s.heard_sameWork p).books

/-- An operation that leaves the books does so any number of times. -/
theorem foldl_books {α : Type} (f : State → α → State) (h : ∀ s x, (f s x).books = s.books) (l : List α)
    (s : State) : (l.foldl f s).books = s.books := by
  induction l generalizing s with
  | nil => rfl
  | cons x l ih => exact (ih _).trans (h s x)

@[simp] theorem State.refreshAll_books : s.refreshAll.books = s.books :=
  foldl_books (fun s p => s.refresh p) (fun s p => s.refresh_books p) _ s

@[simp] theorem State.quiesceTest_books : s.quiesceTest.books = s.books := by
  unfold State.quiesceTest
  split <;> simp

@[simp] theorem State.countDelivery_books (p : Fin 16) (e : PathEntry) : (s.countDelivery p e).books = s.books := by
  unfold State.countDelivery State.checkpoint
  dsimp only
  split <;> simp

@[simp] theorem State.countSpoiled_books (p : Fin 16) : (s.countSpoiled p).books = s.books := rfl

@[simp] theorem State.abandonOpen_books (i : Fin 64) : (s.abandonOpen i).books = s.books := by
  unfold State.abandonOpen
  split <;> simp

@[simp] theorem State.jobNotice_books (i : Fin 64) (r : EndReason) : (s.jobNotice i r).books = s.books := by
  unfold State.jobNotice
  split <;> simp

/-! ### Accounts and paths written -/

theorem State.mapAccount_books (a : Fin 256) (f : Account → Account) :
    (s.mapAccount a f).books = s.books.post a (f s.mu.accounts[a]) := by
  have hget (x : Fin 256) :
      (s.mapAccount a f).mu.accounts[x] = Function.update s.books.account a (f s.mu.accounts[a]) x := by
    rw [State.mapAccount_get, Function.update_apply, eq_comm]
    simp only [@eq_comm _ x a]
    rfl
  simp only [State.books, hget]
  rfl

theorem State.release_books (a : Fin 256) (c : Nat) :
    (s.release a c).books = (s.mapAccount a fun ac => { ac with held := ac.held - c }).books := by
  unfold State.release
  dsimp only
  split <;> rfl

/-- A window clamped (R73), or given up, with the path as it was. -/
theorem State.mapPress_adds (p : Fin 16) (f : Press → Press) (hpath : (f s.presses[p]).path = s.presses[p].path)
    (hwindow : s.presses[p].window ≤ 8 → (f s.presses[p]).window ≤ 8) : s.books.Adds (s.mapPress p f).books := by
  have hpaths : Function.update s.books.path p (f s.presses[p]).path = s.books.path := by
    rw [hpath]; exact Function.update_eq_self p s.books.path
  rw [State.mapPress_writes, hpaths]
  exact Books.window_adds hwindow

/-- Entries moved on with tags, accounts and charges as they were. -/
theorem State.mapPath_upholds (p : Fin 16) (f : PathEntry → PathEntry) (g : Press → Press)
    (hf : ∀ e : PathEntry, e.SameBill (f e)) (hpath : (g s.presses[p]).path = s.presses[p].path.map f)
    (hwindow : (g s.presses[p]).window = s.presses[p].window) : s.books.Upholds (s.mapPress p g).books := by
  rw [s.mapPress_path_books p g hwindow, hpath]
  exact Books.path_upholds hf

/-! ### Dispatch (R93 to R96, R136) -/

@[simp] theorem State.noSheet_books (p : Fin 16) (c : Choice) : (s.noSheet p c).books = s.books :=
  (State.refresh_books _ p).trans (s.mapPress_books p _ rfl rfl)

@[simp] theorem State.fundsRefused_books (p : Fin 16) (h : Handle) (a : Fin 256) (c : Nat) :
    (s.fundsRefused p h a c).books = s.books := by
  unfold State.fundsRefused
  dsimp only
  split <;> simp

/-- A sheet dispatched with its charge reserved is one entry at the end of the path, and its charge held. -/
theorem State.dispatch_books (p : Fin 16) (h : Handle) (j : Job) (fromList : Bool) (x : CopySheet) (r : SheetRecord)
    (c : Nat) :
    let e := newEntry (freshTag s.presses[p].path (s.presses[p].path.length + 1) s.presses[p].tagCounter) h j x r c s.tb
    ((s.reserve j.account c).dispatch p h j fromList x r c).books = s.books.move e.account
      { s.mu.accounts[e.account] with held := s.mu.accounts[e.account].held + e.charge } p (s.books.path p ++ [e]) := by
  intro e
  unfold State.dispatch
  dsimp only
  rw [State.send_books, State.mapJob_books, State.mapPress_path_books (hwindow := by rfl), State.reserve,
    State.mapAccount_books]
  rfl

/-- A sheet is dispatched only where its charge is granted (R136). -/
theorem State.trySheet_adds (p : Fin 16) (hroom : s.presses[p].path.length < s.presses[p].window) (h : Handle) (j : Job)
    (fromList : Bool) (x : CopySheet) : s.books.Adds (s.trySheet p h j fromList x).books := by
  unfold State.trySheet
  split
  · exact .of_eq (s.noSheet_books p _)
  · next r _ =>
    dsimp only
    split
    · next hgrants =>
      obtain ⟨hopen, hcharge⟩ := (Account.grants_iff ..).mp hgrants
      rw [State.refresh_books, State.dispatch_books]
      refine Books.enter_adds hroom (fun hshort => freshTag_not_mem hshort _) rfl ?_ ?_
      · exact fun ha => absurd (hopen.symm.trans ha) (by decide)
      · simp only [Account.availability, newEntry]
        omega
    · exact .of_eq (s.fundsRefused_books p ..)

theorem Press.mayDispatch_room {mode : Mode} {pr : Press} (h : pr.mayDispatch mode = true) :
    pr.path.length < pr.window := by
  rw [Press.mayDispatch, Bool.and_eq_true] at h
  exact of_decide_eq_true h.2

/-- A dispatch opportunity adds at most an entry whose charge the account could pay. -/
theorem State.opportunity_adds (p : Fin 16) : s.books.Adds (s.opportunity p).books := by
  unfold State.opportunity
  split
  · exact .refl _
  · split
    · exact .of_eq (s.refresh_books p)
    · split
      · next hmay =>
        have hroom := Press.mayDispatch_room hmay
        split
        · exact .of_eq (s.noSheet_books p _)
        · exact s.trySheet_adds p hroom ..
        · exact s.trySheet_adds p hroom ..
      · exact .of_eq (s.refresh_books p)

/-! ### Binding and unbinding (R88 to R90) -/

@[simp] theorem State.takeJob_books (p : Fin 16) (c : Fin 8) (h : Handle) (j : Job) :
    (s.takeJob p c h j).books = s.books :=
  (State.send_books _ p _).trans (State.mapPress_books _ p _ rfl rfl)

theorem State.bindEvent_adds (p : Fin 16) : s.books.Adds (s.bindEvent p).books := by
  unfold State.bindEvent
  split
  · split
    · rw [State.bind_eq]
      exact .trans (.of_eq (s.takeJob_books p ..)) (State.opportunity_adds _ p)
    · exact .refl _
  · exact .refl _

theorem State.unbind_adds (p : Fin 16) : s.books.Adds (s.unbind p).books :=
  .trans (.of_eq (s.mapPress_books p _ rfl rfl)) (State.bindEvent_adds _ p)

theorem State.opportunityIfStill_adds (p : Fin 16) (h : Option Handle) :
    s.books.Adds (s.opportunityIfStill p h).books := by
  unfold State.opportunityIfStill
  split
  · exact s.opportunity_adds p
  · exact .refl _

/-! ### Entry to a final state (R16) -/

/-- The job minimum takes no more than the availability (R141). -/
theorem State.applyMinimum_adds (a : Fin 256) (charged : Nat) : s.books.Adds (s.applyMinimum a charged).2.books := by
  unfold State.applyMinimum
  dsimp only
  rw [State.mapAccount_books]
  refine Books.post_adds (fun _ => rfl) (fun h => h.absent a) fun _ hc hpresent => ?_
  obtain ⟨htop, -⟩ := minimumOf_spec (s.planOf a).minimum charged s.mu.accounts[a].availability (hc a hpresent)
  change _ ≤ s.mu.accounts[a].balance - s.mu.accounts[a].held + s.mu.accounts[a].limit at htop
  change 0 ≤ s.mu.accounts[a].balance - _ - s.mu.accounts[a].held + s.mu.accounts[a].limit
  exact (sub_nonneg.mpr htop).trans_eq (by ring)

theorem State.minimumStep_adds (i : Fin 64) (r : EndReason) (j : Job) : s.books.Adds (s.minimumStep i r j).books := by
  unfold State.minimumStep
  split
  · exact s.applyMinimum_adds j.account j.charged
  · exact .refl _

theorem State.unbindStep_adds (i : Fin 64) (j : Job) : s.books.Adds (s.unbindStep i j).books := by
  unfold State.unbindStep
  split
  · exact State.unbind_adds (s.mapJob i _) _
  · exact .refl _

theorem State.enterFinal_adds (i : Fin 64) (r : EndReason) (x : Option CopySheet) :
    s.books.Adds (s.enterFinal i r x).books := by
  unfold State.enterFinal
  split
  · exact .refl _
  · rw [State.jobNotice_books]
    exact (State.minimumStep_adds ((s.mapJob i _).mapSmm _) i r _).trans (State.unbindStep_adds ..)

theorem State.endingTest_adds (i : Fin 64) : s.books.Adds (s.endingTest i).books := by
  unfold State.endingTest
  split
  · split
    · split <;> exact s.enterFinal_adds i _ _
    · exact .refl _
  · exact .refl _

theorem State.doneTest_adds (i : Fin 64) : s.books.Adds (s.doneTest i).books := by
  unfold State.doneTest
  split
  · split
    · exact s.enterFinal_adds i _ _
    · exact .refl _
  · exact .refl _

theorem State.testEnd_adds (i : Fin 64) : s.books.Adds (s.testEnd i).books := by
  unfold State.testEnd
  split
  · split
    · exact s.doneTest_adds i
    · exact s.endingTest_adds i
    · exact .refl _
  · exact .refl _

/-! ### Deliveries and losses (R10, R98 to R101, R137, R138) -/

theorem State.reportDelivery_adds (e : PathEntry) : s.books.Adds (s.reportDelivery e).books := by
  unfold State.reportDelivery
  split
  · exact (s.mapJob _ _).testEnd_adds _
  · exact .refl _

theorem State.reportLoss_adds (e : PathEntry) : s.books.Adds (s.reportLoss e).books := by
  unfold State.reportLoss
  split
  · exact .refl _
  · dsimp only
    split <;> exact .trans (.of_eq (by simp)) (State.testEnd_adds _ _)

/-- An entry has left its path, and its account has been written without the entry's charge. -/
theorem State.entryGone_loses {s t : State} {p : Fin 16} {e : PathEntry} {f : Account → Account}
    (he : e ∈ s.presses[p].path) (hwork : (s.mapPress p (Press.dropEntry e.tag)).SameWork t)
    (hheld : ∀ acc, (f acc).held = acc.held - e.charge) (hstate : ∀ acc, (f acc).state = acc.state)
    (hcredit : ∀ acc, acc.availability ≤ (f acc).availability) :
    s.books.Loses p [e.tag] (t.mapAccount e.account f).books := by
  have haccounts : t.mu.accounts = s.mu.accounts := congrArg Mu.accounts hwork.mu
  have hbooks : (t.mapAccount e.account f).books = s.books.move e.account (f s.mu.accounts[e.account]) p
      (s.presses[p].path.filter fun x => decide (x.tag ≠ e.tag)) := by
    rw [State.mapAccount_books, hwork.books, haccounts, State.mapPress_path_books (hwindow := by rfl)]
    rfl
  rw [hbooks]
  exact Books.leave_loses he (hheld _) (hstate _) (hcredit _)

/-- A delivery takes the entry's charge from balance and held amount alike. -/
theorem State.deliverEntry_loses {s : State} {p : Fin 16} {e : PathEntry} (he : e ∈ s.presses[p].path) :
    s.books.Loses p [e.tag] (s.deliverEntry p e).books := by
  unfold State.deliverEntry
  extract_lets wasStalled s1 s2 s3 s4 s5
  have hwork : s1.SameWork s2 := by
    simp only [s2]
    split
    · exact s1.stopTx_sameWork p
    · exact .refl s1
  have hsettled : s.books.Loses p [e.tag] s3.books :=
    State.entryGone_loses he hwork (fun _ => rfl) (fun _ => rfl) fun acc => by
      simp only [Account.availability]
      omega
  rw [State.stallAfterLeave_books]
  rw [← s3.countDelivery_books p e] at hsettled
  exact hsettled.trans ((s4.reportDelivery_adds e).loses p)

/-- A loss gives the entry's charge back to the availability. -/
theorem State.loseEntry_loses {s : State} {p : Fin 16} {e : PathEntry} (he : e ∈ s.presses[p].path) :
    s.books.Loses p [e.tag] (s.loseEntry p e).books := by
  unfold State.loseEntry
  extract_lets wasStalled s1 s2 s3 s4 s5
  have hwork : s1.SameWork s2 := by
    simp only [s2]
    split
    · exact (s1.stopTx_sameWork p).trans (State.send_sameWork ..)
    · exact .refl s1
  have hreleased : s.books.Loses p [e.tag] s4.books := by
    rw [State.countSpoiled_books, State.release_books]
    exact State.entryGone_loses he hwork (fun _ => rfl) (fun _ => rfl) fun acc => by
      simp only [Account.availability]
      omega
  rw [State.stallAfterLeave_books]
  exact hreleased.trans ((s4.reportLoss_adds e).loses p)

/-- Several entries of a path lost one after another: those that are left stay in the path until their turn comes. -/
theorem State.loseAll_loses {p : Fin 16} (l : List PathEntry) {s : State} (hl : ∀ e ∈ l, e ∈ s.presses[p].path)
    (htags : (l.map PathEntry.tag).Nodup) : s.books.Loses p (l.map PathEntry.tag) (s.loseAll p l).books := by
  induction l generalizing s with
  | nil => exact (Books.Adds.refl _).loses p
  | cons e l ih =>
    rw [List.map_cons, List.nodup_cons] at htags
    have hfirst := State.loseEntry_loses (hl e List.mem_cons_self)
    refine hfirst.trans (ih (fun x hx => hfirst.rest x (hl x (List.mem_cons_of_mem e hx)) fun htag => ?_) htags.2)
    rw [List.mem_singleton] at htag
    exact htags.1 (htag ▸ List.mem_map_of_mem hx)

end

end Sys2Proof.Machine
end

section
/-! What each request's owner does to the books: most leave them; the account requests write one account within the
laws, the ends of jobs and the modes let engines dispatch, a write-off loses a path, and the resets begin the books
anew. -/

namespace Sys2Proof.Machine

section
variable (s : State) (body : List Byte)

/-- Operations that pass both laws on, one after another, from a state with the same books. -/
theorem foldl_adds {α : Type} (f : State → α → State) (h : ∀ (s : State) (x : α), s.books.Adds (f s x).books)
    (l : List α) (u : State) (hu : u.books = s.books) : s.books.Adds (l.foldl f u).books := by
  rw [← hu]
  clear hu
  induction l generalizing u with
  | nil => exact .refl _
  | cons x l ih => exact (h u x).trans (ih _)

/-! ### The frames of requests (R2, R197) -/

/-- A request passes on what its owner's answer does: dropped or refused by the link it writes no books. -/
theorem takeRequest_upholds (typ tag : Byte) (inScan : Bool) (own : State → Answer)
    (h : s.books.Upholds (own s).state.books) : s.books.Upholds (takeRequest typ tag inScan own s).books := by
  obtain ⟨e, -⟩ | ⟨-, ⟨e, -⟩ | e⟩ := takeRequest_cases typ tag inScan own s
  · rw [e]; exact .refl _
  · rw [e]; exact .refl _
  · rw [e]; exact h

theorem longHandleRequest_upholds (own : List Byte → Handle → Job → State → Answer)
    (h : ∀ l i j, s.books.Upholds (own l i j s).state.books) :
    s.books.Upholds (longHandleRequest own body s).state.books := by
  unfold longHandleRequest
  split
  · unfold withJob
    split
    · exact .refl _
    · split
      · exact .refl _
      · exact h _ _ _
  · exact .refl _

theorem handleRequest_upholds (own : Handle → Job → State → Answer)
    (h : ∀ i j, s.books.Upholds (own i j s).state.books) :
    s.books.Upholds (handleRequest body own s).state.books := by
  refine longHandleRequest_upholds s body _ fun l i j => ?_
  split
  · exact h i j
  · exact .refl _

theorem pressRequest_upholds (own : Fin 16 → State → Answer) (h : ∀ p, s.books.Upholds (own p s).state.books) :
    s.books.Upholds (pressRequest body own s).state.books := by
  unfold pressRequest
  split
  · split
    · exact h _
    · exact .refl _
  · exact .refl _

theorem accountRequest_upholds (own : Fin 256 → State → Answer) (h : ∀ n, s.books.Upholds (own n s).state.books) :
    s.books.Upholds (accountRequest body own s).state.books := by
  unfold accountRequest
  split
  · split
    · exact h _
    · exact .refl _
  · exact .refl _

theorem pressSetRequest_books (own : List (Fin 16) → State → Answer) (h : ∀ l, (own l s).state.books = s.books) :
    (pressSetRequest body own s).state.books = s.books := by
  unfold pressSetRequest
  split
  · exact h _
  · rfl

theorem noBody_books (own : State → Answer) (h : (own s).state.books = s.books) :
    (noBody body own s).state.books = s.books := by
  unfold noBody
  split
  · exact h
  · rfl

/-! ### Resets (R143, R144, R208, R209) -/

/-- After a hardware reset every path is empty and every account ABSENT. -/
theorem State.hardReset_upholds (cause : ResetCause) (pins : Pins) :
    s.books.Upholds (s.hardReset cause pins).books := by
  have haccount (a : Fin 256) : (s.hardReset cause pins).books.account a = Account.absent := by
    simp [State.hardReset, State.books, State.hardware]
  have hpress (p : Fin 16) : (s.hardReset cause pins).presses[p] = Press.fresh p := by
    simp [State.hardReset, State.hardware]
  have hpath (p : Fin 16) : (s.hardReset cause pins).books.path p = [] := congrArg Press.path (hpress p)
  have hwindow (p : Fin 16) : (s.hardReset cause pins).books.window p = 0 := congrArg Press.window (hpress p)
  exact {
    lawful := fun _ => {
      short := fun p => by simp [hpath]
      window := fun p => by simp [hwindow]
      tags := fun p => by simp [hpath]
      held := fun a => by simp [haccount, hpath, Books.charges, billed, Account.absent]
      absent := fun a _ => by rw [haccount]; rfl }
    credit := fun _ _ a ha => absurd (congrArg Account.state (haccount a)) ha }

/-- The paths of some presses emptied, with no window raised and no account written. -/
structure Books.Emptied (gone : List (Fin 16)) (b c : Books) : Prop where
  account : c.account = b.account
  path : ∀ p, c.path p = if p ∈ gone then [] else b.path p
  window : ∀ p, c.window p ≤ b.window p

theorem Books.Emptied.trans {b c d : Books} {l m : List (Fin 16)} (x : b.Emptied l c) (y : c.Emptied m d) :
    b.Emptied (l ++ m) d where
  account := y.account.trans x.account
  path p := by
    rw [y.path, x.path]
    by_cases hl : p ∈ l <;> simp [hl]
  window p := (y.window p).trans (x.window p)

theorem State.mapPress_emptied (p : Fin 16) (f : Press → Press) (hpath : (f s.presses[p]).path = [])
    (hwindow : (f s.presses[p]).window ≤ s.presses[p].window) : s.books.Emptied [p] (s.mapPress p f).books := by
  rw [State.mapPress_writes, hpath]
  exact {
    account := rfl
    path := fun q => by simp [Function.update_apply]
    window := fun q => by
      by_cases hq : q = p
      · subst hq
        dsimp only
        rwa [Function.update_self]
      · simp only [Function.update_of_ne hq, le_refl] }

@[simp] theorem State.probe_books (p : Fin 16) : (s.probe p).books = s.books :=
  (State.mapPress_books _ p _ rfl rfl).trans (s.send_books p .probe)

/-- RESET SOFT empties the path of one press and leaves or gives up its window (R86, R113). -/
theorem State.softResetPress_emptied (p : Fin 16) : s.books.Emptied [p] (s.softResetPress p).books := by
  have hawaiting : s.books.Emptied [p]
      ((s.stopTx p).mapPress p fun pr => pr.dispatchReset.toAwaiting).books :=
    s.stopTx_books p ▸ State.mapPress_emptied (s.stopTx p) p _ rfl (Nat.zero_le _)
  unfold State.softResetPress
  split
  · exact s.mapPress_emptied p _ rfl le_rfl
  · rwa [State.probe_books, State.send_books]
  · rwa [State.markPending_books, State.probe_books, State.send_books]

theorem State.foldl_softResetPress_emptied (l : List (Fin 16)) :
    s.books.Emptied l (l.foldl State.softResetPress s).books := by
  induction l generalizing s with
  | nil => exact ⟨rfl, fun p => by simp, fun p => le_rfl⟩
  | cons p l ih => exact (s.softResetPress_emptied p).trans (ih (s.softResetPress p))

/-- RESET SOFT empties the paths and releases every held amount (R144), which lowers no availability. -/
theorem State.softReset_upholds : s.books.Upholds s.softReset.books := by
  have hpresses := s.foldl_softResetPress_emptied (List.finRange 16)
  generalize hu : (List.finRange 16).foldl State.softResetPress s = u at hpresses
  have hbooks : s.softReset.books =
      { u.books with account := fun a => { s.books.account a with held := 0 } } := by
    rw [← hpresses.account]
    unfold State.softReset
    rw [State.notice_books, State.markAll_books, hu]
    simp [State.books, Mu.softReset]
  have hpath (p : Fin 16) : u.books.path p = [] := by simp [hpresses.path]
  rw [hbooks]
  exact {
    lawful := fun h => {
      short := fun p => by simp [hpath]
      window := fun p => (hpresses.window p).trans (h.window p)
      tags := fun p => by simp [hpath]
      held := fun a => by simp [hpath, Books.charges, billed]
      absent := fun _ _ => rfl }
    credit := fun h hc a ha => by
      have hbefore := hc a ha
      have hheld := h.held a
      have hpos := s.books.charges_nonneg a
      simp only [Account.availability] at hbefore ⊢
      omega }

theorem State.reset1_upholds (tag : Byte) (pins : Pins) : s.books.Upholds (s.reset1 tag body pins).books := by
  unfold State.reset1
  split
  · exact s.hardReset_upholds _ pins
  · refine takeRequest_upholds s _ _ _ _ ?_
    split
    · split
      · exact s.softReset_upholds
      · exact .refl _
    · exact .refl _

/-! ### Requests of the link (R203, R110, R201, R202) -/

theorem State.engineToRun_adds (p : Fin 16) : s.books.Adds (s.engineToRun p).books := by
  unfold State.engineToRun
  split
  · exact s.opportunity_adds p
  · exact s.bindEvent_adds p

theorem State.toRun_adds : s.books.Adds s.toRun.books :=
  foldl_adds s State.engineToRun (fun s p => s.engineToRun_adds p) _ _ rfl

theorem modeSet_upholds : s.books.Upholds (modeSet body s).state.books := by
  unfold modeSet acceptMode State.toQuiescing
  split
  · split
    · rw [accept_state]
      split
      · exact .refl _
      · exact s.toRun_adds.toUpholds
    · split
      · split
        · exact .refl _
        · exact .of_eq (by simp)
        · exact .refl _
      · exact .refl _
  · exact .refl _

theorem fetchNotices_books : (fetchNotices body s).state.books = s.books := by
  unfold fetchNotices
  repeat' split
  all_goals simp

theorem attnMask_books : (attnMask body s).state.books = s.books := by unfold attnMask; split <;> simp

theorem attnClear_books : (attnClear body s).state.books = s.books := by unfold attnClear; split <;> simp

/-! ### Job and upload requests (chapters 1 and 2) -/

theorem jobOpen_books : (jobOpen body s).state.books = s.books := by
  have hopen (i : Fin 64) (v : JobOpenValues) (f : Fin 32) (c : Fin 8) : (s.openJob i v f c).books = s.books := by
    unfold State.openJob
    dsimp only
    split <;> rfl
  unfold jobOpen State.openChecked
  dsimp only
  repeat' split
  all_goals simp [hopen]

theorem sheetBegin_books (h : Handle) (j : Job) : (sheetBegin body h j s).state.books = s.books := by
  unfold sheetBegin State.beginSheet
  repeat' split
  all_goals simp

/-- A completed sheet of an ACTIVE job is a dispatch opportunity (R37). -/
theorem faceData_upholds (h : Handle) (j : Job) : s.books.Upholds (faceData body h j s).state.books := by
  have hstore (n : Nat) (r : SheetRecord) (chunk : List Byte) :
      s.books.Upholds (s.storeFaceData h n j r chunk).books := by
    unfold State.storeFaceData State.completeSheet
    dsimp only
    split
    · split
      · exact (State.opportunity_adds (((s.mapSmm _).mapSmm _).mapJob _ _) _).toUpholds
      · exact .refl _
    · exact .refl _
  unfold faceData
  split
  · exact .refl _
  · split
    · exact .refl _
    · split
      · exact .refl _
      · split
        · exact .refl _
        · split
          · exact .refl _
          · exact hstore _ _ _

theorem State.closeTest_adds (h : Handle) : s.books.Adds (s.closeTest h).books := by
  unfold State.closeTest
  split
  · split
    · refine .trans (.of_eq ?_) (State.enterFinal_adds ..)
      split <;> rfl
    · exact .refl _
  · exact .refl _

theorem State.closeJob_adds (h : Handle) (j : Job) : s.books.Adds (s.closeJob h j).books := by
  unfold State.closeJob State.opportunityOf
  split
  · refine .trans ?_ (State.closeTest_adds _ h)
    split
    · exact State.opportunity_adds (s.mapJob _ _) _
    · exact .refl _
  · exact .refl _

theorem jobClose_upholds (h : Handle) (j : Job) : s.books.Upholds (jobClose h j s).state.books := by
  unfold jobClose
  split
  · exact .refl _
  · split
    · exact .refl _
    · split
      · exact .refl _
      · split
        · exact .refl _
        · exact (s.closeJob_adds h j).toUpholds

theorem State.cancelUpload_books (i : Fin 64) : (s.cancelUpload i).books = s.books :=
  s.abandonOpen_books i

theorem jobCancel_upholds (h : Handle) (j : Job) : s.books.Upholds (jobCancel h j s).state.books := by
  have hfinal (u : State) (hu : u.books = s.books) :
      s.books.Upholds ((u.cancelUpload h.slot).enterFinal h.slot .cancelled none).books :=
    .trans (.of_eq ((u.cancelUpload_books h.slot).trans hu)) (State.enterFinal_adds ..).toUpholds
  unfold jobCancel
  dsimp only
  split
  · exact hfinal s rfl
  · exact hfinal (s.mapRu _) rfl
  · split
    · exact hfinal s rfl
    · exact .of_eq (s.cancelUpload_books h.slot)
  · exact .refl _

theorem jobList_books : (jobList body s).state.books = s.books := by
  unfold jobList
  repeat' split
  all_goals simp

theorem jobRelease_books (h : Handle) (j : Job) : (jobRelease h j s).state.books = s.books := by
  unfold jobRelease
  split <;> simp

theorem jobRequeue_upholds (h : Handle) (j : Job) : s.books.Upholds (jobRequeue h j s).state.books := by
  have hrequeue : s.books.Adds (s.requeue h j).books := by
    unfold State.requeue
    split
    · exact (s.returnJob h j).unbind_adds _
    · exact .refl _
  unfold jobRequeue
  split
  · exact .refl _
  · split
    · exact .refl _
    · split
      · exact .refl _
      · exact hrequeue.toUpholds

/-! ### Filter, class and press requests (chapters 3 to 5) -/

theorem filterSet_books : (filterSet body s).state.books = s.books := by
  unfold filterSet filterWrite
  repeat' split
  all_goals simp

theorem filterEnable_books : (filterEnable body s).state.books = s.books := by
  unfold filterEnable
  repeat' split
  all_goals simp

theorem filterQuery_books : (filterQuery body s).state.books = s.books := by
  unfold filterQuery
  repeat' split
  all_goals simp

theorem classSet_books : (classSet body s).state.books = s.books := by
  unfold classSet classWrite
  repeat' split
  all_goals simp

theorem classQuery_books : (classQuery body s).state.books = s.books := by
  unfold classQuery
  repeat' split
  all_goals simp

@[simp] theorem State.moveZone_books (p : Fin 16) (z : Fin 4) : (s.moveZone p z).books = s.books := by
  unfold State.moveZone
  dsimp only
  split
  · rfl
  · exact s.mapPress_books p (fun pr => { pr with profile := { pr.profile with zone := z } }) rfl rfl

/-- A profile written may let the press bind a job (R64). -/
theorem State.setProfile_adds (p : Fin 16) (f : Profile) : s.books.Adds (s.setProfile p f).books := by
  unfold State.setProfile
  split
  · exact .of_eq (s.mapPress_books p _ rfl rfl)
  · refine .trans (.of_eq ?_) (State.bindEvent_adds _ p)
    rw [State.moveZone_books, (State.checkSilence_sameWork _ p).books, State.mapPress_books _ p Press.recompute rfl rfl]
    exact s.mapPress_books p _ rfl rfl

theorem pressSet_upholds : s.books.Upholds (pressSet body s).state.books := by
  unfold pressSet
  split
  · exact .refl _
  · split
    · exact .refl _
    · split
      · exact .refl _
      · split
        · exact .refl _
        · exact (s.setProfile_adds _ _).toUpholds

theorem pressEnable_books (p : Fin 16) : (pressEnable p s).state.books = s.books := by
  unfold pressEnable State.enable
  split
  · rfl
  · exact (State.probe_books _ p).trans (s.mapPress_books p _ rfl rfl)

/-- A press in DISABLED has no window; its path was empty before (R68). -/
theorem State.disable_adds (p : Fin 16) : s.books.Adds (s.disable p).books := by
  have hpress : s.books.Adds ((s.emptyTableOf p).mapPress p Press.disabled).books :=
    State.mapPress_adds (s.emptyTableOf p) p Press.disabled rfl fun _ => Nat.zero_le _
  unfold State.disable
  dsimp only
  split <;> exact hpress

theorem pressDisable_upholds (p : Fin 16) : s.books.Upholds (pressDisable p s).state.books := by
  unfold pressDisable
  split
  · exact .refl _
  · split
    · exact .refl _
    · split
      · exact (s.disable_adds p).toUpholds
      · next h j _ =>
        split
        · exact ((s.returnJob h j).disable_adds p).toUpholds
        · exact .refl _

/-- A write-off loses the whole path (R108). -/
theorem pressWriteoff_upholds (p : Fin 16) : s.books.Upholds (pressWriteoff p s).state.books := by
  have hwriteOff (h : s.books.Lawful) : s.books.Upholds (s.writeOff p).books := by
    have hlost := State.loseAll_loses s.presses[p].path (fun _ he => he) (h.tags p)
    unfold State.writeOff
    dsimp only
    rw [State.quiesceTest_books]
    refine hlost.toUpholds.trans (.trans (.of_eq ?_) (State.opportunityIfStill_adds _ p _).toUpholds)
    exact State.send_books _ p .purge
  unfold pressWriteoff
  split
  · exact .refl _
  · exact .of_eq (s.send_books p .purge)
  · split
    · exact .of_lawful hwriteOff
    · exact .refl _

/-! ### Plan and account requests (chapters 6 and 7) -/

theorem planSet_books : (planSet body s).state.books = s.books := by
  unfold planSet
  repeat' split
  all_goals rfl

theorem planQuery_books : (planQuery body s).state.books = s.books := by
  unfold planQuery
  repeat' split
  all_goals rfl

/-- An account written with its held amount as it was. -/
theorem State.mapAccount_adds (a : Fin 256) (f : Account → Account)
    (hheld : s.books.Lawful → (f s.mu.accounts[a]).held = s.mu.accounts[a].held)
    (habsent : s.books.Lawful → (f s.mu.accounts[a]).state = .absent → (f s.mu.accounts[a]).held = 0)
    (hcredit : s.books.InCredit → (f s.mu.accounts[a]).state ≠ .absent → 0 ≤ (f s.mu.accounts[a]).availability) :
    s.books.Adds (s.mapAccount a f).books := by
  rw [State.mapAccount_books]
  exact Books.post_adds hheld habsent fun _ => hcredit

theorem Account.present_iff (a : Account) : a.present = true ↔ a.state ≠ .absent := decide_eq_true_iff

@[simp] theorem State.riseIf_books (due : Bool) (n : Fin 256) : (s.riseIf due n).books = s.books := by
  unfold State.riseIf
  split <;> rfl

/-- An account opened begins at or above its limit (R130). -/
theorem accountOpen_upholds : s.books.Upholds (accountOpen body s).state.books := by
  have hopen (n : Fin 256) (plan : Fin 8) (limit balance : Int) :
      s.books.Upholds (accountOpenAt n plan limit balance s).state.books := by
    unfold accountOpenAt
    split
    · exact .refl _
    · next hpresent =>
      have habsent : s.mu.accounts[n].state = .absent := by rwa [Account.present_iff, not_not] at hpresent
      split
      · exact .refl _
      · next hlimit =>
        refine (s.mapAccount_adds n _ (fun h => (h.absent n habsent).symm) (fun _ _ => rfl) fun _ _ => ?_).toUpholds
        change 0 ≤ balance - 0 + limit
        omega
  unfold accountOpen
  split
  · split
    · split
      · exact hopen _ _ _ _
      · exact .refl _
    · exact .refl _
  · exact .refl _

/-- ACCOUNT_SET keeps B - H at or above the new limit (R131). -/
theorem accountSet_upholds : s.books.Upholds (accountSet body s).state.books := by
  have hset (n : Fin 256) (plan : Fin 8) (limit : Int) (suspend : Bool) :
      s.books.Upholds (accountSetAt n plan limit suspend s).state.books := by
    unfold accountSetAt
    dsimp only
    split
    · exact .refl _
    · split
      · exact .refl _
      · next hlimit =>
        rw [accept_state, State.riseIf_books]
        refine (s.mapAccount_adds n _ (fun _ => rfl) (fun _ ha => ?_) fun _ _ => ?_).toUpholds
        · cases suspend <;> cases ha
        · change 0 ≤ s.mu.accounts[n].balance - s.mu.accounts[n].held + limit
          omega
  unfold accountSet
  split
  · split
    · split
      · exact hset _ _ _ _
      · exact .refl _
    · exact .refl _
  · exact .refl _

/-- A debit stops at the limit, and a credit lowers no availability (R132). -/
theorem accountAdjust_upholds : s.books.Upholds (accountAdjust body s).state.books := by
  have hadjust (n : Fin 256) (delta : Int) : s.books.Upholds (accountAdjustAt n delta s).state.books := by
    unfold accountAdjustAt
    extract_lets a d
    split
    · exact .refl _
    · split
      · exact .refl _
      · next hfunds =>
        rw [accept_state, State.riseIf_books]
        refine (s.mapAccount_adds n _ (fun _ => rfl) (fun h => h.absent n) fun hc hpresent => ?_).toUpholds
        have hbefore : 0 ≤ a.balance - a.held + a.limit := hc n hpresent
        have hd : d = if 0 < delta then min delta (max 0 (Config.maxBalance - a.balance)) else delta := rfl
        change 0 ≤ a.balance + d - a.held + a.limit
        split at hd <;> omega
  unfold accountAdjust
  split
  · split
    · exact hadjust _ _
    · exact .refl _
  · exact .refl _

theorem accountQuery_books (n : Fin 256) : (accountQuery n s).state.books = s.books := by
  unfold accountQuery
  split <;> rfl

theorem accountPeriod_upholds (n : Fin 256) : s.books.Upholds (accountPeriod n s).state.books := by
  unfold accountPeriod
  dsimp only
  split
  · exact (s.mapAccount_adds n Account.newPeriod (fun _ => rfl) (fun h => h.absent n) fun hc => hc n).toUpholds
  · exact .refl _

/-- An account that holds nothing may be cleared (R135). -/
theorem accountClose_upholds (n : Fin 256) : s.books.Upholds (accountClose n s).state.books := by
  unfold accountClose
  dsimp only
  split
  · exact .refl _
  · split
    · exact .refl _
    · next hclose =>
      refine (s.mapAccount_adds n _ (fun h => ?_) (fun _ _ => rfl) fun _ ha => absurd rfl ha).toUpholds
      have hheld := h.held n
      have hpos := s.books.charges_nonneg n
      rw [Bool.or_eq_true, decide_eq_true_iff, not_or] at hclose
      change 0 = s.mu.accounts[n].held
      change s.mu.accounts[n].held = _ at hheld
      omega

theorem chargeQuote_books : (chargeQuote body s).state.books = s.books := by
  unfold chargeQuote quoteChecked quoteForAccount
  dsimp only
  repeat' split
  all_goals rfl

/-! ### Store, alert and zone requests (chapters 8 to 10) -/

theorem meterSave_books (l : List (Fin 16)) : (meterSave l s).state.books = s.books := by
  unfold meterSave State.saveMeters
  split
  · rfl
  · rw [accept_state, State.mapStore_books, State.markAll_books]

theorem alertModeSet_books : (alertModeSet body s).state.books = s.books := by
  unfold alertModeSet
  repeat' split
  all_goals rfl

theorem alertList_books : (alertList body s).state.books = s.books := by
  unfold alertList
  repeat' split
  all_goals rfl

/-- The end of a hold is a dispatch opportunity or a binding event (R107). -/
theorem State.holdEnded_adds (p : Fin 16) : s.books.Adds (s.holdEnded p).books := by
  have hresume : ((s.mapPress p fun pr => { pr with held := false }).sendBetween p .resume).books = s.books :=
    (State.sendBetween_books _ p .resume).trans (s.mapPress_books p _ rfl rfl)
  unfold State.holdEnded
  dsimp only
  split
  · exact .trans (.of_eq hresume) (State.opportunity_adds _ p)
  · exact .trans (.of_eq hresume) (State.bindEvent_adds _ p)

theorem State.removeEntry_books (p : Fin 16) (r : RemovalReason) (held : Bool) (k : AlertKind) :
    (s.removeEntry p r held k).books = s.books := by
  unfold State.removeEntry
  split <;> simp

theorem State.removeEntries_adds (p : Fin 16) (r : RemovalReason) (l : List AlertKind) :
    s.books.Adds (s.removeEntries p r l).books := by
  have hremoved (b : Bool) : (l.foldl (State.removeEntry p r b) s).books = s.books :=
    foldl_books _ (fun s k => s.removeEntry_books p r b k) l s
  unfold State.removeEntries
  dsimp only
  split
  · exact .trans (.of_eq (hremoved _)) (State.holdEnded_adds _ p)
  · exact .of_eq (hremoved _)

theorem alertClear_upholds : s.books.Upholds (alertClear body s).state.books := by
  unfold alertClear
  split
  · split
    · exact (s.removeEntries_adds _ .cleared _).toUpholds
    · exact .refl _
  · exact .refl _

theorem State.acknowledge_books (z : Fin 4) (l : List (Fin 16)) (named : Option (Fin 16)) (src : AckSource) :
    (s.acknowledge z l named src).books = s.books := by
  have h := foldl_books State.ackPress (fun _ _ => rfl) l s
  unfold State.acknowledge
  split
  · rfl
  · simp [h]

theorem alertAck_books : (alertAck body s).state.books = s.books := by
  unfold alertAck ackAnswer
  repeat' split
  all_goals simp [State.acknowledge_books]

theorem zoneQuery_books : (zoneQuery body s).state.books = s.books := by
  unfold zoneQuery
  repeat' split
  all_goals rfl

end

end Sys2Proof.Machine
end

section
/-! The law of held amounts and the law of availability (R129) along every step: what the events of links, timers and
store do to the books, and so what `exec` and `step` do. -/

namespace Sys2Proof.Machine

section
variable (s : State)

/-! ### Frames from a press (chapters 4 and 5) -/

theorem State.onlineFrame_upholds (p : Fin 16) (f : State → State)
    (h : ∀ u : State, u.books.Upholds (f u).books) : s.books.Upholds (s.onlineFrame p f).books := by
  unfold State.onlineFrame
  split
  · exact .trans (.of_eq (s.heard_books p)) (h _)
  · exact .refl _

theorem clampWindow_le (n : Nat) : clampWindow n ≤ 8 := by
  unfold clampWindow
  omega

theorem State.linkUp_adds (p : Fin 16) (r : Reported) : s.books.Adds (s.linkUp p r).books := by
  have hup : s.books.Adds (s.mapPress p fun pr => (pr.report r).comeOnline s.tb).books :=
    s.mapPress_adds p _ rfl fun _ => clampWindow_le _
  unfold State.linkUp
  dsimp only
  exact .trans (.trans hup (.of_eq (State.notice_books ..))) (State.bindEvent_adds _ p)

/-- A restart loses the whole path (R74). -/
theorem State.restart_upholds (p : Fin 16) (r : Reported) : s.books.Upholds (s.restart p r).books := by
  refine .of_lawful fun h => ?_
  unfold State.restart
  extract_lets changed held bound path s1 s2 s3 s4 s5
  have hreported : s.books.Adds s2.books :=
    .trans (s.mapPress_adds p (Press.report r) rfl fun _ => clampWindow_le _) (.of_eq (State.alert_books ..))
  have hlost : s2.books.Loses p _ s3.books := State.loseAll_loses path (hreported.rest p) (h.tags p)
  have hsent : s5.books = s3.books := by
    simp only [s5, s4, State.notice_books]
    split <;> simp
  rw [State.quiesceTest_books]
  refine (hreported.toUpholds.trans hlost.toUpholds).trans ?_
  rw [← hsent]
  exact (s5.opportunityIfStill_adds p bound).toUpholds

theorem State.takeHello_upholds (p : Fin 16) (r : Reported) : s.books.Upholds (s.takeHello p r).books := by
  unfold State.takeHello
  split
  · exact .refl _
  · exact (s.linkUp_adds p r).toUpholds
  · exact .trans (.of_eq (s.heard_books p)) (State.restart_upholds ..)

theorem State.takeWindow_adds (p : Fin 16) (w : Byte) : s.books.Adds (s.takeWindow p w).books := by
  have hnotice (u : State) (a b : Nat) : (u.windowNotice p a b).books = u.books := by
    unfold State.windowNotice
    split <;> rfl
  have hannounced (a b : Nat) : s.books.Adds ((s.mapPress p (Press.announce w)).windowNotice p a b).books :=
    .trans (s.mapPress_adds p (Press.announce w) rfl fun _ => clampWindow_le _) (.of_eq (hnotice ..))
  unfold State.takeWindow
  dsimp only
  split
  · exact .trans (hannounced ..) (State.opportunity_adds _ p)
  · exact .trans (hannounced ..) (.of_eq (State.refresh_books _ p))

/-! ### Entries moved on (R97) -/

/-- Moving on the entry of one tag leaves what the others bill too. -/
theorem PathEntry.sameBill_ite {f : PathEntry → PathEntry} (hf : ∀ e : PathEntry, e.SameBill (f e)) (tag : Half)
    (e : PathEntry) : e.SameBill (if e.tag = tag then f e else e) := by
  split
  · exact hf e
  · exact ⟨rfl, rfl, rfl⟩

theorem PathEntry.take_sameBill (now : Time) (e : PathEntry) : e.SameBill (e.take now) := by
  unfold PathEntry.take
  split <;> exact ⟨rfl, rfl, rfl⟩

theorem PathEntry.sentOut_sameBill (e : PathEntry) : e.SameBill e.sentOut := by
  unfold PathEntry.sentOut
  split <;> exact ⟨rfl, rfl, rfl⟩

theorem State.takeTaken_upholds (p : Fin 16) (tag : Half) : s.books.Upholds (s.takeTaken p tag).books := by
  unfold State.takeTaken
  split
  · refine .trans ?_ (State.opportunity_adds _ p).toUpholds
    exact s.mapPath_upholds p _ _ (PathEntry.sameBill_ite (PathEntry.take_sameBill s.tb) tag) rfl rfl
  · exact .of_eq (s.protocol_books p _)

/-- The end of a transmission moves its entry on and is a dispatch opportunity (R80, R97). -/
theorem State.endTransmission_upholds (p : Fin 16) (t : Transmission) :
    s.books.Upholds (s.endTransmission p t).books := by
  have hsent : ((s.sendData p t (s.dataLeft t)).send p (.sheetEnd t.tag)).books = s.books :=
    (State.send_books _ p _).trans (s.mapPress_books p _ rfl rfl)
  unfold State.endTransmission
  dsimp only
  refine .trans (.of_eq hsent) (.trans ?_ (State.opportunity_adds _ p).toUpholds)
  exact State.mapPath_upholds _ p _ _ (PathEntry.sameBill_ite PathEntry.sentOut_sameBill t.tag) rfl rfl

/-- States with the same books have the same paths. -/
theorem State.path_of_books {s t : State} (h : t.books = s.books) (p : Fin 16) :
    t.presses[p].path = s.presses[p].path :=
  congrFun (congrArg Books.path h) p

/-! ### Deliveries, skips and faults (R76, R98, R99) -/

/-- The entries before the one of a tag, and that entry, are the front of the path. -/
theorem splitPath_eq {tag : Half} {l older front : List PathEntry} {e : PathEntry}
    (h : splitPath tag older l = some (front, e)) : ∃ rest, older ++ l = front ++ e :: rest := by
  induction l generalizing older with
  | nil => cases h
  | cons x l ih =>
    unfold splitPath at h
    split at h
    · obtain ⟨rfl, rfl⟩ := Prod.mk.inj (Option.some.inj h)
      exact ⟨l, rfl⟩
    · obtain ⟨rest, hrest⟩ := ih h
      exact ⟨rest, by rw [← hrest, List.append_assoc]; rfl⟩

theorem State.misfeed_books (p : Fin 16) (n : Nat) : (s.misfeed p n).books = s.books := by
  unfold State.misfeed
  split
  · rfl
  · exact s.alert_books p _ _

/-- A delivery loses the older entries, which leave the one delivered in the path (R98, R99). -/
theorem State.takeDelivered_upholds (p : Fin 16) (tag : Half) : s.books.Upholds (s.takeDelivered p tag).books := by
  unfold State.takeDelivered
  split
  · exact .of_eq (s.protocol_books p _)
  · next older e hsplit =>
    refine .of_lawful fun h => ?_
    obtain ⟨rest, hpath⟩ := splitPath_eq hsplit
    rw [List.nil_append] at hpath
    have htags : (s.presses[p].path.map PathEntry.tag).Nodup := h.tags p
    rw [hpath, List.map_append, List.map_cons, List.nodup_append] at htags
    obtain ⟨holder, -, hother⟩ := htags
    have hnew : e.tag ∉ older.map PathEntry.tag := fun he => hother _ he _ List.mem_cons_self rfl
    have hmisfed := s.misfeed_books p older.length
    have hmem (x : PathEntry) (hx : x ∈ older ++ e :: rest) : x ∈ (s.misfeed p older.length).presses[p].path := by
      rwa [← hpath, ← State.path_of_books hmisfed p] at hx
    have hlost := State.loseAll_loses older (fun x hx => hmem x (List.mem_append_left _ hx)) holder
    have hdelivered := State.deliverEntry_loses
      (hlost.rest e (hmem e (List.mem_append_right _ List.mem_cons_self)) hnew)
    dsimp only
    rw [State.quiesceTest_books]
    exact ((Books.Upholds.of_eq hmisfed).trans hlost.toUpholds).trans
      (hdelivered.toUpholds.trans (State.opportunityIfStill_adds _ p _).toUpholds)

/-- No element stands twice in a list whose repeats are left out. -/
theorem nodup_eraseDups {α : Type} [BEq α] [LawfulBEq α] : (l : List α) → l.eraseDups.Nodup
  | [] => by simp
  | a :: l => by
    rw [List.eraseDups_cons, List.nodup_cons, List.mem_eraseDups]
    exact ⟨by simp, nodup_eraseDups (l.filter fun b => !b == a)⟩
termination_by l => l.length
decreasing_by exact Nat.lt_succ_of_le (List.length_filter_le ..)

/-- The entries that a FAULT names stand in the path, under distinct tags. -/
theorem Press.named_spec (tags : List Half) (pr : Press) :
    (∀ e ∈ pr.named tags, e ∈ pr.path) ∧ ((pr.named tags).map PathEntry.tag).Nodup := by
  have hfound {t : Half} {e : PathEntry} (h : pr.path.find? (fun e => decide (e.tag = t)) = some e) :
      e ∈ pr.path ∧ e.tag = t := ⟨List.mem_of_find?_eq_some h, of_decide_eq_true (List.find?_some h :)⟩
  have hsub (l : List Half) : ((l.filterMap fun t => pr.path.find? fun e => decide (e.tag = t)).map
      PathEntry.tag).Sublist l := by
    induction l with
    | nil => exact .slnil
    | cons t l ih =>
      rw [List.filterMap_cons]
      split
      · exact ih.cons t
      · next e he =>
        rw [List.map_cons, (hfound he).2]
        exact ih.cons_cons t
  refine ⟨fun e he => ?_, (hsub tags.eraseDups).nodup (nodup_eraseDups _)⟩
  obtain ⟨t, -, ht⟩ := List.mem_filterMap.mp he
  exact (hfound ht).1

theorem State.unknownTags_books (p : Fin 16) (missed : Bool) : (s.unknownTags p missed).books = s.books := by
  unfold State.unknownTags
  split
  · exact s.protocol_books p _
  · rfl

theorem State.afterLosses_adds (p : Fin 16) (l : List PathEntry) (h : Option Handle) :
    s.books.Adds (s.afterLosses p l h).books := by
  unfold State.afterLosses
  split
  · exact .refl _
  · exact s.opportunityIfStill_adds p h

/-- A fault loses the entries it names (R76). -/
theorem State.takeFault_upholds (p : Fin 16) (k : AlertKind) (d : Byte) (tags : List Half) :
    s.books.Upholds (s.takeFault p k d tags).books := by
  obtain ⟨hmem, hnodup⟩ := s.presses[p].named_spec tags
  have hraised := s.alert_books p k d
  have hlost := State.loseAll_loses (s := s.alert p k d) (s.presses[p].named tags)
    (fun e he => by rw [State.path_of_books hraised p]; exact hmem e he) hnodup
  unfold State.takeFault
  dsimp only
  rw [State.quiesceTest_books]
  exact ((Books.Upholds.of_eq hraised).trans hlost.toUpholds).trans
    (.trans (.of_eq (State.unknownTags_books ..)) (State.afterLosses_adds ..).toUpholds)

theorem State.badCheck_books (p : Fin 16) : (s.badCheck p).books = s.books := by
  have hcounted : (s.mapPress p Press.badCheck).books = s.books := s.mapPress_books p _ rfl rfl
  unfold State.badCheck
  split
  · rfl
  · exact hcounted
  · exact (State.protocol_books _ p _).trans hcounted

/-! ### Timers, reports and buttons -/

theorem State.unbindExpiry_adds (p : Fin 16) : s.books.Adds (s.unbindExpiry p).books := by
  unfold State.unbindExpiry
  split
  · next h j _ =>
    split
    · exact (s.returnJob h j).unbind_adds p
    · exact .of_eq (s.mapPress_books p _ rfl rfl)
  · exact .refl _

theorem State.takeQueueEvent_adds (c : Fin 8) : s.books.Adds (s.takeQueueEvent c).books :=
  foldl_adds s (fun s p => s.bindEvent p) (fun s p => s.bindEvent_adds p) _ _ rfl

theorem State.buttonAt_books (z : Fin 4) : (s.buttonAt z).books = s.books := by
  unfold State.buttonAt
  split
  · exact State.acknowledge_books ..
  · rfl
  · rfl

/-! ### The meter store (chapter 8) -/

theorem State.advanceWrite_books : s.advanceWrite.books = s.books := by
  obtain ⟨_, _, _, -, -, e⟩ | ⟨-, e⟩ := s.advanceWrite_spec
  · rw [e]; rfl
  · rw [e]

theorem execStoreWriteBegin_books (t : State) (h : execStoreWriteBegin s = .next t) : t.books = s.books := by
  have hwear : s.wearOut.books = s.books := by
    unfold State.wearOut
    split <;> rfl
  unfold execStoreWriteBegin at h
  split at h
  · split at h
    · exact Host.Outcome.next.inj h ▸ hwear
    · split at h
      · exact Host.Outcome.next.inj h ▸ State.advanceWrite_books (s.mapStore _)
      · cases h
      · exact Host.Outcome.next.inj h ▸ rfl
  · exact Host.Outcome.next.inj h ▸ rfl

theorem State.completeWrite_books (w : WriteOp) : (s.completeWrite w).books = s.books := by
  unfold State.completeWrite State.saveDone
  split <;> rfl

theorem State.endErase_books (k : Fin 4) (residue : List (Nat × Byte)) : (s.endErase k residue).books = s.books := by
  unfold State.endErase State.eraseFailed
  dsimp only
  repeat' split
  all_goals rfl

theorem State.readDone_books : s.readDone.books = s.books := by
  have hload (u : State) : u.loadMeters.books = u.books := rfl
  unfold State.readDone
  dsimp only
  rw [State.mapStore_books, hload, State.mapStore_books]

theorem State.endScan_books : s.endScan.books = s.books := by
  unfold State.endScan State.scannedNotice State.storeSettles
  dsimp only
  repeat' split
  all_goals rfl

/-! ### Every command, and every step -/

/-- A command that acts on a condition and passes without effect otherwise (log entry 8). -/
theorem ite_upholds {c : Prop} [Decidable c] {u : State} (k : s.books.Upholds u.books) :
    s.books.Upholds (if c then u else s).books := by
  split
  · exact k
  · exact .refl _

/-- The next state of an outcome that is one. -/
theorem upholds_of_next {u t : State} (h : (Host.Outcome.next u : Host.Outcome State Fault Refusal) = .next t)
    (k : s.books.Upholds u.books) : s.books.Upholds t.books := Host.Outcome.next.inj h ▸ k

/-- Every command passes on the laws of held amounts and of availability. -/
theorem exec_upholds (c : Instr) (t : State) (h : exec c s = .next t) : s.books.Upholds t.books := by
  have request {typ tag : Byte} {inScan : Bool} {own : State → Answer} (k : s.books.Upholds (own s).state.books) :
      s.books.Upholds (takeRequest typ tag inScan own s).books := takeRequest_upholds s typ tag inScan own k
  cases c with
  | powerOnReset pins => exact upholds_of_next s h (s.hardReset_upholds _ pins)
  | rstPinReset pins => exact upholds_of_next s h (s.hardReset_upholds _ pins)
  | resetHard tag body pins => exact upholds_of_next s h (s.reset1_upholds body tag pins)
  | resetSoft tag body => exact upholds_of_next s h (s.reset1_upholds body tag s.pins)
  | identify tag body => exact upholds_of_next s h (request (.of_eq (noBody_books s body _ rfl)))
  | status tag body => exact upholds_of_next s h (request (.of_eq (noBody_books s body _ rfl)))
  | modeSetRun tag body => exact upholds_of_next s h (request (modeSet_upholds s body))
  | modeSetQuiesce tag body => exact upholds_of_next s h (request (modeSet_upholds s body))
  | fetchNotices tag body => exact upholds_of_next s h (request (.of_eq (fetchNotices_books s body)))
  | attnMask tag body => exact upholds_of_next s h (request (.of_eq (attnMask_books s body)))
  | attnClear tag body => exact upholds_of_next s h (request (.of_eq (attnClear_books s body)))
  | jobOpen tag body => exact upholds_of_next s h (request (.of_eq (jobOpen_books s body)))
  | sheetBegin tag body =>
    refine upholds_of_next s h (request (longHandleRequest_upholds s body _ fun l i j => ?_))
    exact .of_eq (sheetBegin_books s l i j)
  | faceData tag body => exact upholds_of_next s h (request (longHandleRequest_upholds s body _ (faceData_upholds s)))
  | jobClose tag body => exact upholds_of_next s h (request (handleRequest_upholds s body _ (jobClose_upholds s)))
  | jobCancel tag body => exact upholds_of_next s h (request (handleRequest_upholds s body _ (jobCancel_upholds s)))
  | jobQuery tag body => exact upholds_of_next s h (request (handleRequest_upholds s body _ fun _ _ => .refl _))
  | jobList tag body => exact upholds_of_next s h (request (.of_eq (jobList_books s body)))
  | jobRelease tag body =>
    exact upholds_of_next s h (request (handleRequest_upholds s body _ fun i j => .of_eq (jobRelease_books s i j)))
  | jobRequeue tag body => exact upholds_of_next s h (request (handleRequest_upholds s body _ (jobRequeue_upholds s)))
  | filterSet tag body => exact upholds_of_next s h (request (.of_eq (filterSet_books s body)))
  | filterEnable tag body => exact upholds_of_next s h (request (.of_eq (filterEnable_books s body)))
  | filterQuery tag body => exact upholds_of_next s h (request (.of_eq (filterQuery_books s body)))
  | classSet tag body => exact upholds_of_next s h (request (.of_eq (classSet_books s body)))
  | classQuery tag body => exact upholds_of_next s h (request (.of_eq (classQuery_books s body)))
  | pressSet tag body => exact upholds_of_next s h (request (pressSet_upholds s body))
  | pressEnable tag body =>
    exact upholds_of_next s h (request (pressRequest_upholds s body _ fun p => .of_eq (pressEnable_books s p)))
  | pressDisable tag body =>
    exact upholds_of_next s h (request (pressRequest_upholds s body _ (pressDisable_upholds s)))
  | pressQuery tag body => exact upholds_of_next s h (request (pressRequest_upholds s body _ fun _ => .refl _))
  | pressWriteoff tag body =>
    exact upholds_of_next s h (request (pressRequest_upholds s body _ (pressWriteoff_upholds s)))
  | planSet tag body => exact upholds_of_next s h (request (.of_eq (planSet_books s body)))
  | planQuery tag body => exact upholds_of_next s h (request (.of_eq (planQuery_books s body)))
  | accountOpen tag body => exact upholds_of_next s h (request (accountOpen_upholds s body))
  | accountSet tag body => exact upholds_of_next s h (request (accountSet_upholds s body))
  | accountAdjust tag body => exact upholds_of_next s h (request (accountAdjust_upholds s body))
  | accountQuery tag body =>
    exact upholds_of_next s h (request (accountRequest_upholds s body _ fun n => .of_eq (accountQuery_books s n)))
  | accountPeriod tag body =>
    exact upholds_of_next s h (request (accountRequest_upholds s body _ (accountPeriod_upholds s)))
  | accountClose tag body =>
    exact upholds_of_next s h (request (accountRequest_upholds s body _ (accountClose_upholds s)))
  | chargeQuote tag body => exact upholds_of_next s h (request (.of_eq (chargeQuote_books s body)))
  | meterRead tag body => exact upholds_of_next s h (request (.of_eq (pressSetRequest_books s body _ fun _ => rfl)))
  | meterSave tag body =>
    exact upholds_of_next s h (request (.of_eq (pressSetRequest_books s body _ (meterSave_books s))))
  | storeQuery tag body => exact upholds_of_next s h (request (.of_eq (noBody_books s body _ rfl)))
  | alertModeSet tag body => exact upholds_of_next s h (request (.of_eq (alertModeSet_books s body)))
  | alertList tag body => exact upholds_of_next s h (request (.of_eq (alertList_books s body)))
  | alertClear tag body => exact upholds_of_next s h (request (alertClear_upholds s body))
  | alertAckPress tag body => exact upholds_of_next s h (request (.of_eq (alertAck_books s body)))
  | alertAckZone tag body => exact upholds_of_next s h (request (.of_eq (alertAck_books s body)))
  | zoneQuery tag body => exact upholds_of_next s h (request (.of_eq (zoneQuery_books s body)))
  | unknownRequest typ tag body =>
    refine upholds_of_next s h ?_
    split
    · exact .refl _
    · exact takeRequest_upholds s typ tag true _ (.refl _)
  | requestDropped typ tag body => exact upholds_of_next s h (ite_upholds s (.of_eq s.dropRequest_books))
  | frameBadLength len => exact upholds_of_next s h (ite_upholds s (.of_eq rfl))
  | frameBadCheck typ tag body check => exact upholds_of_next s h (ite_upholds s (.of_eq rfl))
  | csDeasserted mosi =>
    refine upholds_of_next s h ?_
    split <;> exact .of_eq rfl
  | replyClockedOut => exact upholds_of_next s h (.of_eq rfl)
  | hello p model serial caps grades win => exact upholds_of_next s h (s.takeHello_upholds p _)
  | window p win => exact upholds_of_next s h (s.onlineFrame_upholds p _ fun u => (u.takeWindow_adds p win).toUpholds)
  | taken p tag => exact upholds_of_next s h (s.onlineFrame_upholds p _ fun u => u.takeTaken_upholds p tag)
  | delivered p tag => exact upholds_of_next s h (s.onlineFrame_upholds p _ fun u => u.takeDelivered_upholds p tag)
  | fault p kind detail tags =>
    refine upholds_of_next s h (s.onlineFrame_upholds p _ fun u => ?_)
    split
    · exact u.takeFault_upholds p _ detail tags
    · exact .of_eq (u.protocol_books p _)
  | clear p kind detail =>
    exact upholds_of_next s h (s.onlineFrame_upholds p _ fun u => .of_eq (u.conditionEnd_books p _ _))
  | beat p => exact upholds_of_next s h (s.onlineFrame_upholds p _ fun u => .refl _)
  | feedBadCheck p typ len body check => exact upholds_of_next s h (ite_upholds s (.of_eq (s.badCheck_books p)))
  | feedBadFrame p typ body =>
    exact upholds_of_next s h (ite_upholds s (s.onlineFrame_upholds p _ fun u => .of_eq (u.protocol_books p _)))
  | probeTimerExpiry p => exact upholds_of_next s h (ite_upholds s (.of_eq (s.probe_books p)))
  | silenceDeadline p => exact upholds_of_next s h (ite_upholds s (.of_eq (s.alert_books p _ _)))
  | stallDeadline p =>
    refine upholds_of_next s h ?_
    split
    · exact .of_eq (s.raiseStall_books p _)
    · exact .refl _
  | unbindDeadline p => exact upholds_of_next s h (ite_upholds s (s.unbindExpiry_adds p).toUpholds)
  | retryDeadline p kind => exact upholds_of_next s h (ite_upholds s (s.removeEntries_adds p _ _).toUpholds)
  | transmissionEnd p =>
    refine upholds_of_next s h ?_
    split
    · exact s.endTransmission_upholds p _
    · exact .refl _
  | queueEvent cls => exact upholds_of_next s h (ite_upholds s (s.takeQueueEvent_adds cls).toUpholds)
  | availabilityRiseReport p account =>
    refine upholds_of_next s h (ite_upholds s (.trans (.of_eq ?_) (State.opportunity_adds _ p).toUpholds))
    rfl
  | ackInputChange zone active => exact upholds_of_next s h (.of_eq rfl)
  | buttonDeadline zone => exact upholds_of_next s h (ite_upholds s (.of_eq (s.buttonAt_books zone)))
  | storeWriteBegin => exact .of_eq (execStoreWriteBegin_books s t h)
  | storeWriteComplete =>
    refine upholds_of_next s h ?_
    split
    · exact .of_eq (s.completeWrite_books _)
    · exact .refl _
  | storeEraseBegin =>
    refine upholds_of_next s h ?_
    split
    · exact ite_upholds s (.of_eq rfl)
    · exact .refl _
  | storeEraseEnd residue =>
    refine upholds_of_next s h ?_
    split
    · exact .of_eq (s.endErase_books _ residue)
    · exact .refl _
  | scanReadDone => exact upholds_of_next s h (ite_upholds s (.of_eq s.readDone_books))
  | scanEnd => exact upholds_of_next s h (ite_upholds s (.of_eq s.endScan_books))

theorem State.tick_books : s.tick.books = s.books := by
  have k := State.advanceWrite_books { s with tb := s.tb + 1 }
  unfold State.tick
  extract_lets u
  split
  exact k

/-- Every step passes both laws on, a millisecond of an empty queue included. -/
theorem step_upholds (t : State) (h : step s = .next t) : s.books.Upholds t.books := by
  unfold step at h
  split at h
  · exact .of_eq (Host.Outcome.next.inj h ▸ s.tick_books)
  · next c rest _ => exact exec_upholds { s with pending := rest } c t h

end

/-- Settles O8: a reservation and its entry come together, and so do an entry gone and its charge settled or
released. -/
theorem heldIsChargesInFlight : Obligations.HeldIsChargesInFlight := by
  intro s t hs h
  exact t.heldSound_iff.mpr ((step_upholds s t h).lawful (s.heldSound_iff.mp hs))

/-- Settles O9: what lowers an availability is a charge granted, a job minimum, a debit or a lower limit, and each stops
at 0. -/
theorem availabilityNeverNegative : Obligations.AvailabilityNeverNegative := by
  intro s t hs h
  obtain ⟨hheld, hcredit⟩ := s.creditSound_iff.mp hs
  have k := step_upholds s t h
  exact t.creditSound_iff.mpr ⟨k.lawful hheld, k.credit hheld hcredit⟩

end Sys2Proof.Machine
end

section
/-! The account requests (R130 to R135) and the job minimum (R141, R142): each body read back as the fields that a host
sends, and what an account that is ABSENT or not answers and becomes. -/

namespace Sys2Proof.Machine

/-! ### Bodies (R211) -/

theorem account?_u16 (a : Fin 256) : account? (BitVec.ofNat 8 (a.val / 256)) (BitVec.ofNat 8 a.val) = some a := by
  rw [account?, be16_u16 a.val (by omega), toFin?_val]

/-- A credit limit that is no more than the largest reads back from its three bytes. -/
theorem be24_limit {limit : Int} (h0 : 0 ≤ limit) (hmax : limit ≤ 10000000) :
    ((be24 (BitVec.ofNat 8 (limit.toNat / 65536)) (BitVec.ofNat 8 (limit.toNat / 256)) (BitVec.ofNat 8 limit.toNat) :
      Nat) : Int) = limit := by
  rw [be24_u24 limit.toNat (by omega)]
  omega

theorem accountRequest_bytes (a : Fin 256) (own : Fin 256 → State → Answer) (s : State) :
    accountRequest (u16 a.val) own s = own a s := by
  simp only [accountRequest, u16, account?_u16]

theorem accountOpen_bytes (a : Fin 256) (plan : Fin 8) {limit balance : Int} (h0 : 0 ≤ limit) (hmax : limit ≤ 10000000)
    (hlow : -10000000 ≤ balance) (hhigh : balance ≤ 2000000000) (s : State) :
    accountOpen (u16 a.val ++ u8 plan.val ++ u24 limit.toNat ++ i32 balance) s =
      accountOpenAt a plan limit balance s := by
  have hbytes : u16 a.val ++ u8 plan.val ++ u24 limit.toNat ++ i32 balance =
      [BitVec.ofNat 8 (a.val / 256), BitVec.ofNat 8 a.val, BitVec.ofNat 8 plan.val,
        BitVec.ofNat 8 (limit.toNat / 65536), BitVec.ofNat 8 (limit.toNat / 256), BitVec.ofNat 8 limit.toNat,
        BitVec.ofNat 8 ((BitVec.ofInt 32 balance).toNat / 16777216),
        BitVec.ofNat 8 ((BitVec.ofInt 32 balance).toNat / 65536),
        BitVec.ofNat 8 ((BitVec.ofInt 32 balance).toNat / 256), BitVec.ofNat 8 (BitVec.ofInt 32 balance).toNat] := rfl
  rw [hbytes]
  simp only [accountOpen, account?_u16, toFin?_planByte, be24_limit h0 hmax, beInt_i32 balance (by omega) (by omega)]
  exact if_pos ⟨hmax, hlow, hhigh⟩

theorem accountSet_bytes (a : Fin 256) (plan : Fin 8) {limit : Int} (h0 : 0 ≤ limit) (hmax : limit ≤ 10000000)
    (suspend : Bool) (s : State) :
    accountSet (u16 a.val ++ u8 plan.val ++ u24 limit.toNat ++ flag suspend) s =
      accountSetAt a plan limit suspend s := by
  have hbytes : u16 a.val ++ u8 plan.val ++ u24 limit.toNat ++ [if suspend then 1 else 0] =
      [BitVec.ofNat 8 (a.val / 256), BitVec.ofNat 8 a.val, BitVec.ofNat 8 plan.val,
        BitVec.ofNat 8 (limit.toNat / 65536), BitVec.ofNat 8 (limit.toNat / 256), BitVec.ofNat 8 limit.toNat,
        if suspend then 1 else 0] := rfl
  rw [(yes_flag suspend).1, hbytes]
  simp only [accountSet, account?_u16, toFin?_planByte, be24_limit h0 hmax, (yes_flag suspend).2]
  exact if_pos hmax

theorem accountAdjust_bytes (a : Fin 256) {delta : Int} (hlow : -2147483648 ≤ delta) (hhigh : delta ≤ 2147483647)
    (s : State) : accountAdjust (u16 a.val ++ i32 delta) s = accountAdjustAt a delta s := by
  simp only [accountAdjust, u16, i32, u32, u24, List.cons_append, List.nil_append, account?_u16,
    beInt_i32 delta hlow hhigh]

/-! ### The requests as their bodies read -/

section
variable {s : State} (tag : Byte) (a : Fin 256)

theorem exec_accountOpen (ht : s.takes = true) (plan : Fin 8) {limit balance : Int} (h0 : 0 ≤ limit)
    (hmax : limit ≤ 10000000) (hlow : -10000000 ≤ balance) (hhigh : balance ≤ 2000000000) :
    let own := accountOpenAt a plan limit balance s
    exec (.accountOpen tag (u16 a.val ++ u8 plan.val ++ u24 limit.toNat ++ i32 balance)) s =
      .next (own.state.reply 0x32 tag own.status own.body) := by
  intro own
  change Host.Outcome.next (takeRequest 0x32 tag false (accountOpen _) s) = _
  rw [takeRequest_taken _ _ _ _ _ ht, accountOpen_bytes a plan h0 hmax hlow hhigh]

theorem exec_accountSet (ht : s.takes = true) (plan : Fin 8) {limit : Int} (h0 : 0 ≤ limit) (hmax : limit ≤ 10000000)
    (suspend : Bool) :
    let own := accountSetAt a plan limit suspend s
    exec (.accountSet tag (u16 a.val ++ u8 plan.val ++ u24 limit.toNat ++ flag suspend)) s =
      .next (own.state.reply 0x33 tag own.status own.body) := by
  intro own
  change Host.Outcome.next (takeRequest 0x33 tag false (accountSet _) s) = _
  rw [takeRequest_taken _ _ _ _ _ ht, accountSet_bytes a plan h0 hmax]

theorem exec_accountAdjust (ht : s.takes = true) {delta : Int} (hlow : -2147483648 ≤ delta)
    (hhigh : delta ≤ 2147483647) :
    let own := accountAdjustAt a delta s
    exec (.accountAdjust tag (u16 a.val ++ i32 delta)) s = .next (own.state.reply 0x34 tag own.status own.body) := by
  intro own
  change Host.Outcome.next (takeRequest 0x34 tag false (accountAdjust _) s) = _
  rw [takeRequest_taken _ _ _ _ _ ht, accountAdjust_bytes a hlow hhigh]

/-- A request for one account answers as its owner does. -/
theorem next_accountRequest (ht : s.takes = true) (typ : Byte) (own : Fin 256 → State → Answer) :
    (Host.Outcome.next (takeRequest typ tag false (accountRequest (u16 a.val) own) s) :
        Host.Outcome State Fault Refusal) =
      .next ((own a s).state.reply typ tag (own a s).status (own a s).body) := by
  rw [takeRequest_taken _ _ _ _ _ ht, accountRequest_bytes]

theorem exec_accountQuery (ht : s.takes = true) :
    let own := accountQuery a s
    exec (.accountQuery tag (u16 a.val)) s = .next (own.state.reply 0x35 tag own.status own.body) :=
  next_accountRequest tag a ht 0x35 accountQuery

theorem exec_accountPeriod (ht : s.takes = true) :
    let own := accountPeriod a s
    exec (.accountPeriod tag (u16 a.val)) s = .next (own.state.reply 0x36 tag own.status own.body) :=
  next_accountRequest tag a ht 0x36 accountPeriod

theorem exec_accountClose (ht : s.takes = true) :
    let own := accountClose a s
    exec (.accountClose tag (u16 a.val)) s = .next (own.state.reply 0x37 tag own.status own.body) :=
  next_accountRequest tag a ht 0x37 accountClose

end

/-! ### Opening and closing (R130, R135) -/

section
variable {s : State} {a : Fin 256}

theorem Account.present_eq_true {acc : Account} (h : acc.state ≠ .absent) : acc.present = true := acc.present_iff.mpr h

theorem Account.present_eq_false {acc : Account} (h : acc.state = .absent) : acc.present = false := by
  rw [Bool.eq_false_iff, Ne, Account.present_iff, not_not, h]

theorem accountOpenAt_present (h : s.mu.accounts[a].state ≠ .absent) (plan : Fin 8) (limit balance : Int) :
    accountOpenAt a plan limit balance s = refuse .state s := by
  rw [accountOpenAt, Account.present_eq_true h, if_pos rfl]

theorem accountOpenAt_funds (h : s.mu.accounts[a].state = .absent) (plan : Fin 8) {limit balance : Int}
    (hfunds : balance < -limit) : accountOpenAt a plan limit balance s = refuse .funds s := by
  simp only [accountOpenAt, Account.present_eq_false h, Bool.false_eq_true, if_false, if_pos hfunds]

theorem accountOpenAt_opens (h : s.mu.accounts[a].state = .absent) (plan : Fin 8) {limit balance : Int}
    (hfunds : -limit ≤ balance) :
    accountOpenAt a plan limit balance s =
      accept (Account.opening plan limit balance).withAvailability
        (s.mapAccount a fun _ => Account.opening plan limit balance) := by
  simp only [accountOpenAt, Account.present_eq_false h, Bool.false_eq_true, if_false, if_neg (Int.not_lt.mpr hfunds)]

theorem accountClose_absent (h : s.mu.accounts[a].state = .absent) : accountClose a s = refuse .none s := by
  simp only [accountClose, Account.present_eq_false h, Bool.not_false, if_true]

theorem accountClose_busy (h : s.mu.accounts[a].state ≠ .absent)
    (hbusy : s.liveJobsOf a ≠ [] ∨ 0 < s.mu.accounts[a].held) : accountClose a s = refuse .state s := by
  have : (!(s.liveJobsOf a).isEmpty || decide (0 < s.mu.accounts[a].held)) = true := by
    simpa only [Bool.or_eq_true, Bool.not_eq_true', List.isEmpty_eq_false_iff, decide_eq_true_iff] using hbusy
  simp only [accountClose, Account.present_eq_true h, Bool.not_true, Bool.false_eq_true, if_false, this, if_true]

theorem accountClose_closes (h : s.mu.accounts[a].state ≠ .absent) (hjobs : s.liveJobsOf a = [])
    (hheld : s.mu.accounts[a].held ≤ 0) :
    accountClose a s = accept s.mu.accounts[a].bytes (s.mapAccount a fun _ => Account.absent) := by
  simp only [accountClose, Account.present_eq_true h, hjobs, List.isEmpty_nil, decide_eq_false (Int.not_lt.mpr hheld),
    Bool.not_true, Bool.or_false, Bool.false_eq_true, if_false]

end

/-- Settles O42: by the account's state, the balance against the limit, and what is live or held. -/
theorem accountsOpenedAndClosed : Obligations.AccountsOpenedAndClosed := by
  intro tag a s ht acc
  have hclose := exec_accountClose tag a ht
  refine ⟨fun plan limit balance h0 hmax hlow hhigh => ?_, fun hp hjobs hheld => ?_, fun hp hbusy => ?_, fun ha => ?_⟩
  · have hopen := exec_accountOpen tag a ht plan h0 hmax hlow hhigh
    refine ⟨fun hp => ?_, fun ha hfunds => ?_, fun ha hfunds => ?_⟩
    · rw [hopen, accountOpenAt_present hp]; rfl
    · rw [hopen, accountOpenAt_funds ha plan hfunds]; rfl
    · have havailable : (Account.opening plan limit balance).availability = balance + limit := by
        simp [Account.availability, Account.opening, Account.absent]
      rw [hopen, accountOpenAt_opens ha plan hfunds, Account.withAvailability, havailable]
      rfl
  · rw [hclose, accountClose_closes hp hjobs hheld]; rfl
  · rw [hclose, accountClose_busy hp hbusy]; rfl
  · rw [hclose, accountClose_absent ha]; rfl

/-! ### Setting and adjusting (R131, R132, R139) -/

section
variable {s : State} {a : Fin 256}

/-- An availability event that is due is reported to the presses that wait, and to no press otherwise. -/
theorem State.riseIf_eq (due : Bool) (a : Fin 256) (s : State) :
    s.riseIf due a = s.mapMu fun mu => { mu with
      rises := mu.rises ++ if due then (s.waitingOn a).map fun p => { press := p, account := a } else [] } := by
  cases due
  · simp [State.riseIf, State.mapMu]
  · rfl

theorem accountSetAt_funds (h : s.mu.accounts[a].state ≠ .absent) (plan : Fin 8) {limit : Int} (suspend : Bool)
    (hfunds : s.mu.accounts[a].balance - s.mu.accounts[a].held < -limit) :
    accountSetAt a plan limit suspend s = refuse .funds s := by
  simp only [accountSetAt, Account.present_eq_true h, Bool.not_true, Bool.false_eq_true, if_false, if_pos hfunds]

theorem accountSetAt_writes (h : s.mu.accounts[a].state ≠ .absent) (plan : Fin 8) {limit : Int} (suspend : Bool)
    (hfunds : -limit ≤ s.mu.accounts[a].balance - s.mu.accounts[a].held) :
    accountSetAt a plan limit suspend s =
      accept (s.mu.accounts[a].written plan limit suspend).withAvailability
        ((s.mapAccount a (Account.written plan limit suspend)).riseIf (s.mu.accounts[a].raisedBy limit suspend) a) := by
  simp only [accountSetAt, Account.present_eq_true h, Bool.not_true, Bool.false_eq_true, if_false,
    if_neg (Int.not_lt.mpr hfunds)]

theorem Account.raisedBy_iff (acc : Account) (limit : Int) (suspend : Bool) :
    acc.raisedBy limit suspend = true ↔ acc.limit < limit ∨ (acc.state = .suspended ∧ suspend = false) := by
  simp [Account.raisedBy]

/-- What an adjustment applies (R132): a credit as far as the largest balance, a debit whole. -/
def Account.applied (acc : Account) (delta : Int) : Int := if 0 < delta then acc.appliedDelta delta else delta

theorem accountAdjustAt_funds (h : s.mu.accounts[a].state ≠ .absent) {delta : Int} (hneg : delta < 0)
    (hfunds : s.mu.accounts[a].balance + delta - s.mu.accounts[a].held < -s.mu.accounts[a].limit) :
    accountAdjustAt a delta s = refuse .funds s := by
  simp only [accountAdjustAt, Account.present_eq_true h, Bool.not_true, Bool.false_eq_true, if_false,
    if_pos (And.intro hneg hfunds)]

theorem accountAdjustAt_applies (h : s.mu.accounts[a].state ≠ .absent) {delta : Int}
    (hfunds : 0 ≤ delta ∨
      -s.mu.accounts[a].limit ≤ s.mu.accounts[a].balance + delta - s.mu.accounts[a].held) :
    let acc := s.mu.accounts[a]
    let d := acc.applied delta
    accountAdjustAt a delta s =
      accept (adjustReply delta d { acc with balance := acc.balance + d })
        ((s.mapAccount a fun ac => { ac with balance := ac.balance + d }).riseIf (decide (0 < d)) a) := by
  intro acc d
  have hgranted : ¬ (delta < 0 ∧
      s.mu.accounts[a].balance + delta - s.mu.accounts[a].held < -s.mu.accounts[a].limit) := by omega
  simp only [accountAdjustAt, Account.present_eq_true h, Bool.not_true, Bool.false_eq_true, if_false, if_neg hgranted]
  rfl

end

/-- Settles O43: what the two requests write, and to whom a rise is reported. -/
theorem accountsSetAndAdjusted : Obligations.AccountsSetAndAdjusted := by
  intro tag a s ht hp acc rises
  refine ⟨?_, ?_⟩
  · intro plan limit suspend h0 hmax request new
    have hset : exec request s = _ := exec_accountSet tag a ht plan h0 hmax suspend
    refine ⟨fun hfunds => ?_, fun hfunds => ?_⟩
    · rw [hset, accountSetAt_funds hp plan suspend hfunds]; rfl
    · rw [hset, accountSetAt_writes hp plan suspend hfunds, State.riseIf_eq]
      simp only [Account.raisedBy_iff]
      rfl
  · intro delta hlow hhigh request applied
    have hadjust : exec request s = _ := exec_accountAdjust tag a ht hlow hhigh
    refine ⟨fun hneg hfunds => ?_, fun hfunds => ?_⟩
    · rw [hadjust, accountAdjustAt_funds hp hneg hfunds]; rfl
    · rw [hadjust, accountAdjustAt_applies hp hfunds, State.riseIf_eq]
      simp only [decide_eq_true_iff]
      rfl

/-! ### Reporting and ending a period (R133, R134) -/

section
variable {s : State} {a : Fin 256}

theorem accountQuery_absent (h : s.mu.accounts[a].state = .absent) : accountQuery a s = accept [0] s := by
  rw [accountQuery, Account.present_eq_false h]; rfl

theorem accountQuery_present (h : s.mu.accounts[a].state ≠ .absent) :
    accountQuery a s = accept (s.accountReport a) s := by
  rw [accountQuery, Account.present_eq_true h, if_pos rfl]

theorem accountPeriod_absent (h : s.mu.accounts[a].state = .absent) : accountPeriod a s = refuse .none s := by
  simp only [accountPeriod, Account.present_eq_false h, Bool.false_eq_true, if_false]

theorem accountPeriod_present (h : s.mu.accounts[a].state ≠ .absent) :
    let acc := s.mu.accounts[a]
    accountPeriod a s = accept (u32 acc.faces ++ u32 acc.sheets ++ u32 acc.charged ++ u32 acc.shortfall)
      (s.mapAccount a Account.newPeriod) := by
  simp only [accountPeriod, Account.present_eq_true h, if_true]

/-- The live jobs of an account are counted slot by slot. -/
theorem State.liveJobsOf_length (s : State) (a : Fin 256) :
    (s.liveJobsOf a).length = (s.jobs.toList.filter fun sl => match sl.job with
      | some j => decide (j.account = a) && !j.state.final
      | none => false).length := by
  rw [State.liveJobsOf]
  induction s.jobs.toList with
  | nil => rfl
  | cons sl l ih =>
    rw [List.filterMap_cons, List.filter_cons]
    cases hj : sl.job with
    | none => simpa [hj] using ih
    | some j =>
      by_cases hlive : j.account = a ∧ j.state.final = false
      · simpa [hj, hlive] using ih
      · have : (decide (j.account = a) && !j.state.final) = false := by
          rw [Bool.eq_false_iff, Ne, Bool.and_eq_true, decide_eq_true_iff, Bool.not_eq_true']
          exact hlive
        simpa [hj, hlive, this] using ih

end

/-- Settles O44: an account that is not ABSENT is reported field by field, with its live jobs and entries counted. -/
theorem accountsQueriedAndPeriodEnded : Obligations.AccountsQueriedAndPeriodEnded := by
  intro tag a s ht acc
  have hquery := exec_accountQuery tag a ht
  have hperiod := exec_accountPeriod tag a ht
  refine ⟨fun ha => ⟨?_, ?_⟩, fun hp => ⟨?_, ?_⟩⟩
  · rw [hquery, accountQuery_absent ha]; rfl
  · rw [hperiod, accountPeriod_absent ha]; rfl
  · rw [hquery, accountQuery_present hp, State.accountReport, State.liveJobsOf_length]
    rfl
  · rw [hperiod, accountPeriod_present hp]; rfl

/-! ### The job minimum (R141, R142) -/

/-- With no negative availability the top-up is the smaller of what is missing and the availability. -/
theorem minimumOf_eq (m charged : Nat) {v : Int} (h : 0 ≤ v) :
    minimumOf m charged v = (min (m - charged) v.toNat, m - charged - min (m - charged) v.toNat) := by
  have htop : (min ((m - charged : Nat) : Int) v).toNat = min (m - charged) v.toNat := by omega
  simp only [minimumOf, htop]

/-- Settles O45: the top-up is within the availability, so what it leaves is not below 0. -/
theorem jobMinimumStaysInCredit : Obligations.JobMinimumStaysInCredit := by
  intro a charged s hv acc missing top
  have hminimum := minimumOf_eq (s.planOf a).minimum charged hv
  have htop : (top : Int) ≤ acc.availability := by
    simp only [top]
    change ((min missing acc.availability.toNat : Nat) : Int) ≤ acc.availability
    have : 0 ≤ acc.availability := hv
    omega
  have hleft : (s.applyMinimum a charged) = ((top, missing - top), s.mapAccount a fun ac => { ac with
      balance := ac.balance - top, charged := satAdd max32 ac.charged top
      shortfall := satAdd max32 ac.shortfall (missing - top) }) := by
    simp only [State.applyMinimum, hminimum]
    rfl
  refine ⟨hleft, ?_⟩
  rw [hleft, State.mapAccount_get, if_pos rfl]
  change 0 ≤ acc.balance - top - acc.held + acc.limit
  have : acc.availability = acc.balance - acc.held + acc.limit := rfl
  omega

end Sys2Proof.Machine
end

section
/-! The live press meters (R145, R146) under the operations of the part: nearly every one leaves them as they are, said as
an equation on `State.live`; a delivery and a loss count up and saturate. -/

namespace Sys2Proof.Machine

/-- The live counters of the presses. -/
def State.live (s : State) (p : Fin 16) : Counters := s.mu.meters[p].live

/-! ### Counters that only rise -/

/-- Every counter of one press's record is within its range (R145). -/
theorem Counters.inRange_iff (c : Counters) :
    c.inRange = true ↔ c.mono ≤ maxMeter ∧ c.color ≤ maxMeter ∧ c.delivered ≤ maxMeter ∧ c.spoiled ≤ maxMeter := by
  simp [Counters.inRange, and_assoc]

theorem Counters.le_refl (c : Counters) : c.le c := ⟨Nat.le_refl _, Nat.le_refl _, Nat.le_refl _, Nat.le_refl _⟩

theorem Counters.le_trans {a b c : Counters} (x : a.le b) (y : b.le c) : a.le c := by
  obtain ⟨x1, x2, x3, x4⟩ := x
  obtain ⟨y1, y2, y3, y4⟩ := y
  exact ⟨x1.trans y1, x2.trans y2, x3.trans y3, x4.trans y4⟩

/-- Meters in range stay in range (R145), and then none of them falls (R146). -/
structure Climb (a b : Fin 16 → Counters) : Prop where
  inRange : (∀ p, (a p).inRange = true) → ∀ p, (b p).inRange = true
  le : (∀ p, (a p).inRange = true) → ∀ p, (a p).le (b p)

theorem Climb.refl (a : Fin 16 → Counters) : Climb a a := ⟨id, fun _ p => Counters.le_refl (a p)⟩

theorem Climb.of_eq {a b : Fin 16 → Counters} (h : b = a) : Climb a b := h ▸ .refl a

theorem Climb.trans {a b c : Fin 16 → Counters} (x : Climb a b) (y : Climb b c) : Climb a c :=
  ⟨y.inRange ∘ x.inRange, fun h p => Counters.le_trans (x.le h p) (y.le (x.inRange h) p)⟩

/-- An operation under which the meters climb makes them climb any number of times. -/
theorem foldl_climb {α : Type} (f : State → α → State) (h : ∀ (s : State) (x : α), Climb s.live (f s x).live)
    (l : List α) (s : State) : Climb s.live (l.foldl f s).live := by
  induction l generalizing s with
  | nil => exact .refl _
  | cons x l ih => exact (h s x).trans (ih _)

/-- A saturating count stays in range and does not fall. -/
theorem satAdd_climbs {n : Nat} (h : n ≤ maxMeter) (k : Nat) :
    satAdd maxMeter n k ≤ maxMeter ∧ n ≤ satAdd maxMeter n k := by
  unfold satAdd
  omega

theorem Counters.deliver_climbs (e : PathEntry) {c : Counters} (h : c.inRange = true) :
    (c.deliver e).inRange = true ∧ c.le (c.deliver e) := by
  obtain ⟨hmono, hcolor, hdelivered, hspoiled⟩ := c.inRange_iff.mp h
  obtain ⟨rm, lm⟩ := satAdd_climbs hmono (e.facesOf .mono)
  obtain ⟨rc, lc⟩ := satAdd_climbs hcolor (e.facesOf .color)
  obtain ⟨rd, ld⟩ := satAdd_climbs hdelivered 1
  exact ⟨(Counters.inRange_iff _).mpr ⟨rm, rc, rd, hspoiled⟩, lm, lc, ld, le_rfl⟩

theorem Counters.spoil_climbs {c : Counters} (h : c.inRange = true) : c.spoil.inRange = true ∧ c.le c.spoil := by
  obtain ⟨hmono, hcolor, hdelivered, hspoiled⟩ := c.inRange_iff.mp h
  obtain ⟨rs, ls⟩ := satAdd_climbs hspoiled 1
  exact ⟨(Counters.inRange_iff _).mpr ⟨hmono, hcolor, hdelivered, rs⟩, le_rfl, le_rfl, le_rfl, ls⟩

section
variable (s : State)

theorem State.metersBounded_iff : s.metersBounded ↔ ∀ p, (s.live p).inRange = true := Iff.rfl

/-! ### Operations that leave the meters -/

theorem State.SameWork.live {s t : State} (h : s.SameWork t) : t.live = s.live := by
  unfold State.live
  rw [h.mu]

theorem State.Acted.live {s t : State} {l : List (Fin 16)} (h : s.Acted l t) : t.live = s.live := by
  unfold State.live
  rw [h.meters]

@[simp] theorem State.mapMlc_live (f : Mlc → Mlc) : (s.mapMlc f).live = s.live := rfl
@[simp] theorem State.mapSlot_live (i : Fin 64) (f : Slot → Slot) : (s.mapSlot i f).live = s.live := rfl
@[simp] theorem State.mapJob_live (i : Fin 64) (f : Job → Job) : (s.mapJob i f).live = s.live := rfl
@[simp] theorem State.mapSmm_live (f : Smm → Smm) : (s.mapSmm f).live = s.live := rfl
@[simp] theorem State.mapRu_live (f : Ru → Ru) : (s.mapRu f).live = s.live := rfl
@[simp] theorem State.mapPress_live (p : Fin 16) (f : Press → Press) : (s.mapPress p f).live = s.live := rfl
@[simp] theorem State.mapStore_live (f : Store → Store) : (s.mapStore f).live = s.live := rfl
@[simp] theorem State.mapAu_live (f : Au → Au) : (s.mapAu f).live = s.live := rfl
@[simp] theorem State.mapZone_live (z : Fin 4) (f : Zone → Zone) : (s.mapZone z f).live = s.live := rfl
@[simp] theorem State.mapAccount_live (a : Fin 256) (f : Account → Account) : (s.mapAccount a f).live = s.live := rfl
@[simp] theorem State.notice_live (k : NoticeKind) (a b : Nat) (d : List Byte) :
    (s.notice k a b d).live = s.live := rfl
@[simp] theorem State.dropRequest_live : s.dropRequest.live = s.live := rfl
@[simp] theorem State.markPending_live (p : Fin 16) : (s.markPending p).live = s.live := rfl
@[simp] theorem State.send_live (p : Fin 16) (f : FeedFrame) : (s.send p f).live = s.live := rfl
@[simp] theorem State.refresh_live (p : Fin 16) : (s.refresh p).live = s.live := rfl
@[simp] theorem State.setEntry_live (p : Fin 16) (k : AlertKind) (e : Option AlertEntry) :
    (s.setEntry p k e).live = s.live := rfl
@[simp] theorem State.derivePattern_live (z : Fin 4) : (s.derivePattern z).live = s.live := rfl
@[simp] theorem State.handToZone_live (p : Fin 16) : (s.handToZone p).live = s.live := rfl
@[simp] theorem State.probe_live (p : Fin 16) : (s.probe p).live = s.live := rfl
@[simp] theorem State.settle_live (a : Fin 256) (c n : Nat) : (s.settle a c n).live = s.live := rfl

@[simp] theorem State.markAll_live (l : List (Fin 16)) : (s.markAll l).live = s.live := (s.markAll_sameWork l).live
@[simp] theorem State.sendBetween_live (p : Fin 16) (f : FeedFrame) : (s.sendBetween p f).live = s.live :=
  (s.sendBetween_sameWork p f).live
@[simp] theorem State.stopTx_live (p : Fin 16) : (s.stopTx p).live = s.live := (s.stopTx_sameWork p).live
@[simp] theorem State.alert_live (p : Fin 16) (k : AlertKind) (d : Byte) : (s.alert p k d).live = s.live :=
  (s.raise_sameWork p k d).live
@[simp] theorem State.protocol_live (p : Fin 16) (e : ProtocolError) : (s.protocol p e).live = s.live :=
  (s.raise_sameWork p _ _).live
@[simp] theorem State.conditionEnd_live (p : Fin 16) (k : AlertKind) (d : Option Byte) :
    (s.conditionEnd p k d).live = s.live := (s.conditionEnd_sameWork p k d).live
@[simp] theorem State.raiseStall_live (p : Fin 16) (tag : Half) : (s.raiseStall p tag).live = s.live :=
  (s.raiseStall_sameWork p tag).live
@[simp] theorem State.stallAfterLeave_live (p : Fin 16) (w : Bool) : (s.stallAfterLeave p w).live = s.live :=
  (s.stallAfterLeave_sameWork p w).live
@[simp] theorem State.heard_live (p : Fin 16) : (s.heard p).live = s.live := (s.heard_sameWork p).live
@[simp] theorem State.advanceWrite_live : s.advanceWrite.live = s.live := s.advanceWrite_sameWork.live
@[simp] theorem State.opportunity_live (p : Fin 16) : (s.opportunity p).live = s.live := (s.opportunity_acted p).live
@[simp] theorem State.bindEvent_live (p : Fin 16) : (s.bindEvent p).live = s.live := (s.bindEvent_acted p).live
@[simp] theorem State.engineToRun_live (p : Fin 16) : (s.engineToRun p).live = s.live := (s.engineToRun_acted p).live
@[simp] theorem State.unbind_live (p : Fin 16) : (s.unbind p).live = s.live := State.bindEvent_live _ p

/-- An operation that leaves the meters does so any number of times. -/
theorem foldl_live {α : Type} (f : State → α → State) (h : ∀ s x, (f s x).live = s.live) (l : List α) (s : State) :
    (l.foldl f s).live = s.live := by
  induction l generalizing s with
  | nil => rfl
  | cons x l ih => exact (ih _).trans (h s x)

@[simp] theorem State.opportunityIfStill_live (p : Fin 16) (h : Option Handle) :
    (s.opportunityIfStill p h).live = s.live := by
  unfold State.opportunityIfStill
  split <;> simp

@[simp] theorem State.opportunityOf_live (j : Job) : (s.opportunityOf j).live = s.live := by
  unfold State.opportunityOf
  split <;> simp

@[simp] theorem State.refreshAll_live : s.refreshAll.live = s.live :=
  foldl_live (fun s p => s.refresh p) (fun _ _ => rfl) _ s

@[simp] theorem State.quiesceTest_live : s.quiesceTest.live = s.live := by
  unfold State.quiesceTest
  split <;> simp

@[simp] theorem State.release_live (a : Fin 256) (c : Nat) : (s.release a c).live = s.live := by
  unfold State.release
  dsimp only
  split <;> rfl

@[simp] theorem State.riseIf_live (due : Bool) (n : Fin 256) : (s.riseIf due n).live = s.live := by
  unfold State.riseIf
  split <;> rfl

/-! ### The ends of jobs (R14 to R18) -/

@[simp] theorem State.abandonOpen_live (i : Fin 64) : (s.abandonOpen i).live = s.live := by
  unfold State.abandonOpen
  split <;> simp

@[simp] theorem State.minimumStep_live (i : Fin 64) (r : EndReason) (j : Job) :
    (s.minimumStep i r j).live = s.live := by
  unfold State.minimumStep
  split <;> rfl

@[simp] theorem State.unbindStep_live (i : Fin 64) (j : Job) : (s.unbindStep i j).live = s.live := by
  unfold State.unbindStep
  split <;> simp

@[simp] theorem State.jobNotice_live (i : Fin 64) (r : EndReason) : (s.jobNotice i r).live = s.live := by
  unfold State.jobNotice
  split <;> simp

@[simp] theorem State.enterFinal_live (i : Fin 64) (r : EndReason) (x : Option CopySheet) :
    (s.enterFinal i r x).live = s.live := by
  unfold State.enterFinal
  split <;> simp

@[simp] theorem State.endingTest_live (i : Fin 64) : (s.endingTest i).live = s.live := by
  unfold State.endingTest
  repeat' split
  all_goals simp

@[simp] theorem State.doneTest_live (i : Fin 64) : (s.doneTest i).live = s.live := by
  unfold State.doneTest
  repeat' split
  all_goals simp

@[simp] theorem State.testEnd_live (i : Fin 64) : (s.testEnd i).live = s.live := by
  unfold State.testEnd
  repeat' split
  all_goals simp

@[simp] theorem State.reportDelivery_live (e : PathEntry) : (s.reportDelivery e).live = s.live := by
  unfold State.reportDelivery
  split <;> simp

@[simp] theorem State.reportLoss_live (e : PathEntry) : (s.reportLoss e).live = s.live := by
  unfold State.reportLoss
  dsimp only
  repeat' split
  all_goals simp

/-! ### Deliveries and losses (R98, R100, R146) -/

/-- A meter written with counters that climb. -/
theorem State.mapMeter_climbs (p : Fin 16) (f : Meter → Meter)
    (h : ∀ m : Meter, m.live.inRange = true → (f m).live.inRange = true ∧ m.live.le (f m).live) :
    Climb s.live (s.mapMeter p f).live := by
  have hget (q : Fin 16) :
      (s.mapMeter p f).live q = if p = q then (f s.mu.meters[p]).live else s.live q := by
    simp only [State.live, State.mapMeter, State.mapMu_mu, Fin.getElem_fin, Vector.getElem_set, Fin.ext_iff]
    split <;> rfl
  refine ⟨fun hs q => ?_, fun hs q => ?_⟩
  · rw [hget]
    split
    · exact (h _ (hs p)).1
    · exact hs q
  · rw [hget]
    split
    · next hpq => exact hpq ▸ (h _ (hs p)).2
    · exact Counters.le_refl _

/-- The checkpoint count is no counter of the meter. -/
theorem State.checkpoint_climbs (p : Fin 16) : Climb s.live (s.checkpoint p).live := by
  have hsince (n : Nat) : Climb s.live (s.mapMeter p fun m => { m with since := n }).live :=
    s.mapMeter_climbs p _ fun _ hm => ⟨hm, Counters.le_refl _⟩
  unfold State.checkpoint
  dsimp only
  split
  · exact hsince 0
  · exact hsince _

theorem State.countDelivery_climbs (p : Fin 16) (e : PathEntry) : Climb s.live (s.countDelivery p e).live :=
  (s.mapMeter_climbs p _ fun _ hm => Counters.deliver_climbs e hm).trans (State.checkpoint_climbs _ p)

theorem State.countSpoiled_climbs (p : Fin 16) : Climb s.live (s.countSpoiled p).live :=
  s.mapMeter_climbs p _ fun _ hm => Counters.spoil_climbs hm

theorem State.deliverEntry_climbs (p : Fin 16) (e : PathEntry) : Climb s.live (s.deliverEntry p e).live := by
  unfold State.deliverEntry
  dsimp only
  rw [State.stallAfterLeave_live, State.reportDelivery_live]
  refine .trans (.of_eq ?_) (State.countDelivery_climbs _ p e)
  split <;> simp

theorem State.loseEntry_climbs (p : Fin 16) (e : PathEntry) : Climb s.live (s.loseEntry p e).live := by
  unfold State.loseEntry
  dsimp only
  rw [State.stallAfterLeave_live, State.reportLoss_live]
  refine .trans (.of_eq ?_) (State.countSpoiled_climbs _ p)
  split <;> simp

theorem State.loseAll_climbs (p : Fin 16) (l : List PathEntry) : Climb s.live (s.loseAll p l).live :=
  foldl_climb (fun s e => s.loseEntry p e) (fun s e => s.loseEntry_climbs p e) l s

/-! ### Holds (R107, R179) -/

@[simp] theorem State.holdEnded_live (p : Fin 16) : (s.holdEnded p).live = s.live := by
  unfold State.holdEnded
  dsimp only
  split <;> simp

@[simp] theorem State.removeEntry_live (p : Fin 16) (r : RemovalReason) (held : Bool) (k : AlertKind) :
    (s.removeEntry p r held k).live = s.live := by
  unfold State.removeEntry
  split <;> simp

@[simp] theorem State.removeEntries_live (p : Fin 16) (r : RemovalReason) (l : List AlertKind) :
    (s.removeEntries p r l).live = s.live := by
  have h := fun b => foldl_live (State.removeEntry p r b) (fun s k => s.removeEntry_live p r b k) l s
  unfold State.removeEntries
  dsimp only
  split <;> simp [h]

@[simp] theorem State.acknowledge_live (z : Fin 4) (l : List (Fin 16)) (named : Option (Fin 16)) (src : AckSource) :
    (s.acknowledge z l named src).live = s.live := by
  have h := foldl_live State.ackPress (fun _ _ => rfl) l s
  unfold State.acknowledge
  split
  · rfl
  · simp [h]

/-! ### The meter store (chapter 8) -/

@[simp] theorem State.wearOut_live : s.wearOut.live = s.live := by
  unfold State.wearOut
  split <;> rfl

@[simp] theorem State.completeWrite_live (w : WriteOp) : (s.completeWrite w).live = s.live := by
  unfold State.completeWrite State.saveDone
  split <;> rfl

@[simp] theorem State.endErase_live (k : Fin 4) (residue : List (Nat × Byte)) :
    (s.endErase k residue).live = s.live := by
  unfold State.endErase State.eraseFailed
  dsimp only
  repeat' split
  all_goals rfl

@[simp] theorem State.endScan_live : s.endScan.live = s.live := by
  unfold State.endScan State.scannedNotice State.storeSettles
  dsimp only
  repeat' split
  all_goals rfl

/-! ### Resets (R162, R165, R208, R209) -/

/-- A hardware reset leaves every counter at 0 until the scan has loaded it (R145). -/
theorem State.hardReset_live (cause : ResetCause) (pins : Pins) (p : Fin 16) :
    (s.hardReset cause pins).live p = ⟨0, 0, 0, 0⟩ := by
  simp [State.live, State.hardReset, State.hardware, Meter.fresh]

@[simp] theorem State.softResetPress_live (p : Fin 16) : (s.softResetPress p).live = s.live := by
  unfold State.softResetPress
  split <;> simp

/-- RESET SOFT clears the counts since the last checkpoint and keeps the counters (R165). -/
@[simp] theorem State.softReset_live : s.softReset.live = s.live := by
  have h := foldl_live State.softResetPress (fun s p => s.softResetPress_live p) (List.finRange 16) s
  unfold State.softReset
  rw [State.notice_live, State.markAll_live, ← h]
  funext p
  simp [State.live, Mu.softReset]

/-- A record that reads back is in range (R150). -/
theorem parseRecord_inRange {l : List Byte} {r : MeterRecord} (h : parseRecord l = some r) :
    r.counters.inRange = true := by
  unfold parseRecord at h
  split at h
  · cases h
  · split at h
    · next hsound =>
      obtain ⟨-, -, -, -, hrange⟩ := hsound
      exact Option.some.inj h ▸ hrange
    · cases h

theorem slotKindOf_inRange {l : List Byte} {r : MeterRecord} (h : slotKindOf l = .record r) :
    r.counters.inRange = true := by
  unfold slotKindOf at h
  split at h
  · cases h
  · split at h
    · cases h
    · split at h
      · next hparse =>
        cases h
        exact parseRecord_inRange hparse
      · cases h

/-- The record of highest sequence of a list is one of the list. -/
theorem highest_mem {l : List (Newest × MeterRecord)} {x : Newest × MeterRecord} (h : highest l = some x) :
    x ∈ l := by
  induction l generalizing x with
  | nil => cases h
  | cons y l ih =>
    unfold highest at h
    split at h
    · next hrest =>
      split at h
      · exact List.mem_cons_of_mem _ (Option.some.inj h ▸ ih hrest)
      · exact Option.some.inj h ▸ List.mem_cons_self
    · exact Option.some.inj h ▸ List.mem_cons_self

/-- The records of the flash are those that its slots read as. -/
theorem Store.mem_records {st : Store} {x : Newest × MeterRecord} :
    x ∈ st.records ↔ ∃ k i r, i < 256 ∧ st.kindAt k i = .record r ∧ x = (⟨k, i, r.sequence⟩, r) := by
  have hslot (k : Fin 4) (i : Nat) :
      st.recordAt k i = some x ↔ ∃ r, st.kindAt k i = .record r ∧ x = (⟨k, i, r.sequence⟩, r) := by
    unfold Store.recordAt
    cases st.kindAt k i <;> simp [eq_comm]
  simp [Store.records, hslot, Config.sectorSlots]

/-- What the scan loads is in range (R162). -/
theorem Store.loaded_inRange (st : Store) (p : Fin 16) : (st.loaded p).inRange = true := by
  unfold Store.loaded
  split
  · next x hx =>
    have hmem := List.mem_of_mem_filter (highest_mem hx)
    obtain ⟨k, i, r, -, hkind, rfl⟩ := Store.mem_records.mp hmem
    exact slotKindOf_inRange hkind
  · rfl

/-- After the scan's reading every live counter is what the scan loaded (R162). -/
theorem State.readDone_live (p : Fin 16) : s.readDone.live p = s.store.loaded p := by
  simp only [State.live, State.readDone, State.mapStore_mu, State.loadMeters, State.mapMu_mu, State.mapStore_store,
    Fin.getElem_fin, Vector.getElem_ofFn]
  rfl

end

end Sys2Proof.Machine
end

section
/-! The live press meters along every step (R145, R146): what each request and event does to them, and so what `exec` and
`step` do. -/

namespace Sys2Proof.Machine

section
variable (s : State) (body : List Byte)

/-! ### The frames of requests (R2, R197) -/

/-- A request does to the meters what its owner's answer does: dropped or refused by the link it touches none. -/
theorem takeRequest_climbs (typ tag : Byte) (inScan : Bool) (own : State → Answer)
    (h : Climb s.live (own s).state.live) : Climb s.live (takeRequest typ tag inScan own s).live := by
  obtain ⟨e, -⟩ | ⟨-, ⟨e, -⟩ | e⟩ := takeRequest_cases typ tag inScan own s
  · rw [e]; exact .refl _
  · rw [e]; exact .refl _
  · rw [e]; exact h

theorem longHandleRequest_live (own : List Byte → Handle → Job → State → Answer)
    (h : ∀ l i j, (own l i j s).state.live = s.live) : (longHandleRequest own body s).state.live = s.live := by
  unfold longHandleRequest withJob
  repeat' split
  all_goals simp [h]

theorem handleRequest_live (own : Handle → Job → State → Answer) (h : ∀ i j, (own i j s).state.live = s.live) :
    (handleRequest body own s).state.live = s.live := by
  refine longHandleRequest_live s body _ fun l i j => ?_
  split
  · exact h i j
  · rfl

theorem pressRequest_climbs (own : Fin 16 → State → Answer) (h : ∀ p, Climb s.live (own p s).state.live) :
    Climb s.live (pressRequest body own s).state.live := by
  unfold pressRequest
  split
  · split
    · exact h _
    · exact .refl _
  · exact .refl _

theorem accountRequest_live (own : Fin 256 → State → Answer) (h : ∀ n, (own n s).state.live = s.live) :
    (accountRequest body own s).state.live = s.live := by
  unfold accountRequest
  repeat' split
  all_goals simp [h]

theorem pressSetRequest_live (own : List (Fin 16) → State → Answer) (h : ∀ l, (own l s).state.live = s.live) :
    (pressSetRequest body own s).state.live = s.live := by
  unfold pressSetRequest
  split <;> simp [h]

theorem noBody_live (own : State → Answer) (h : (own s).state.live = s.live) :
    (noBody body own s).state.live = s.live := by
  unfold noBody
  split <;> simp [h]

/-! ### The owners of the requests -/

@[simp] theorem State.toRun_live : s.toRun.live = s.live :=
  (foldl_live State.engineToRun (fun s p => s.engineToRun_live p) _ _).trans rfl

theorem modeSet_live : (modeSet body s).state.live = s.live := by
  unfold modeSet acceptMode State.toQuiescing
  repeat' split
  all_goals simp

theorem fetchNotices_live : (fetchNotices body s).state.live = s.live := by
  unfold fetchNotices
  repeat' split
  all_goals simp

theorem attnMask_live : (attnMask body s).state.live = s.live := by unfold attnMask; split <;> simp

theorem attnClear_live : (attnClear body s).state.live = s.live := by unfold attnClear; split <;> simp

theorem jobOpen_live : (jobOpen body s).state.live = s.live := by
  have hopen (i : Fin 64) (v : JobOpenValues) (f : Fin 32) (c : Fin 8) : (s.openJob i v f c).live = s.live := by
    unfold State.openJob
    dsimp only
    split <;> rfl
  unfold jobOpen State.openChecked
  dsimp only
  repeat' split
  all_goals simp [hopen]

theorem sheetBegin_live (h : Handle) (j : Job) : (sheetBegin body h j s).state.live = s.live := by
  unfold sheetBegin State.beginSheet
  repeat' split
  all_goals simp

theorem faceData_live (h : Handle) (j : Job) : (faceData body h j s).state.live = s.live := by
  have hstore (n : Nat) (r : SheetRecord) (chunk : List Byte) : (s.storeFaceData h n j r chunk).live = s.live := by
    unfold State.storeFaceData State.completeSheet
    dsimp only
    repeat' split
    all_goals simp
  unfold faceData
  repeat' split
  all_goals simp [hstore]

theorem jobClose_live (h : Handle) (j : Job) : (jobClose h j s).state.live = s.live := by
  have htest (u : State) : (u.closeTest h).live = u.live := by
    unfold State.closeTest
    repeat' split
    all_goals simp
  have hclose : (s.closeJob h j).live = s.live := by
    unfold State.closeJob
    split <;> simp [htest]
  unfold jobClose
  repeat' split
  all_goals simp [hclose]

theorem jobCancel_live (h : Handle) (j : Job) : (jobCancel h j s).state.live = s.live := by
  have hupload (u : State) : (u.cancelUpload h.slot).live = u.live := u.abandonOpen_live h.slot
  unfold jobCancel
  dsimp only
  repeat' split
  all_goals simp [hupload]

theorem jobList_live : (jobList body s).state.live = s.live := by
  unfold jobList
  repeat' split
  all_goals simp

theorem jobRelease_live (h : Handle) (j : Job) : (jobRelease h j s).state.live = s.live := by
  unfold jobRelease
  split <;> simp

@[simp] theorem State.returnJob_live (h : Handle) (j : Job) : (s.returnJob h j).live = s.live := rfl

theorem jobRequeue_live (h : Handle) (j : Job) : (jobRequeue h j s).state.live = s.live := by
  unfold jobRequeue State.requeue
  repeat' split
  all_goals simp

theorem filterSet_live : (filterSet body s).state.live = s.live := by
  unfold filterSet filterWrite
  repeat' split
  all_goals simp

theorem filterEnable_live : (filterEnable body s).state.live = s.live := by
  unfold filterEnable
  repeat' split
  all_goals simp

theorem filterQuery_live : (filterQuery body s).state.live = s.live := by
  unfold filterQuery
  repeat' split
  all_goals simp

theorem classSet_live : (classSet body s).state.live = s.live := by
  unfold classSet classWrite
  repeat' split
  all_goals simp

theorem classQuery_live : (classQuery body s).state.live = s.live := by
  unfold classQuery
  repeat' split
  all_goals simp

theorem pressSet_live : (pressSet body s).state.live = s.live := by
  have hzone (u : State) (p : Fin 16) (z : Fin 4) : (u.moveZone p z).live = u.live := by
    unfold State.moveZone
    dsimp only
    split <;> rfl
  have hset (p : Fin 16) (f : Profile) : (s.setProfile p f).live = s.live := by
    unfold State.setProfile
    split <;> simp [hzone, (State.checkSilence_sameWork _ _).live]
  unfold pressSet
  repeat' split
  all_goals simp [hset]

theorem pressEnable_live (p : Fin 16) : (pressEnable p s).state.live = s.live := by
  unfold pressEnable State.enable
  split <;> simp

theorem pressDisable_live (p : Fin 16) : (pressDisable p s).state.live = s.live := by
  have hdisable (u : State) : (u.disable p).live = u.live := by
    unfold State.disable State.emptyTableOf
    dsimp only
    split <;> simp
  unfold pressDisable
  repeat' split
  all_goals simp [hdisable]

/-- A write-off counts the lost entries of the path spoiled (R108). -/
theorem pressWriteoff_climbs (p : Fin 16) : Climb s.live (pressWriteoff p s).state.live := by
  have hwriteOff : Climb s.live (s.writeOff p).live := by simpa [State.writeOff] using s.loseAll_climbs p _
  unfold pressWriteoff
  split
  · exact .refl _
  · exact .refl _
  · split
    · exact hwriteOff
    · exact .refl _

theorem planSet_live : (planSet body s).state.live = s.live := by
  unfold planSet
  repeat' split
  all_goals rfl

theorem planQuery_live : (planQuery body s).state.live = s.live := by
  unfold planQuery
  repeat' split
  all_goals rfl

theorem accountOpen_live : (accountOpen body s).state.live = s.live := by
  unfold accountOpen accountOpenAt
  repeat' split
  all_goals simp

theorem accountSet_live : (accountSet body s).state.live = s.live := by
  unfold accountSet accountSetAt
  dsimp only
  repeat' split
  all_goals simp

theorem accountAdjust_live : (accountAdjust body s).state.live = s.live := by
  unfold accountAdjust accountAdjustAt
  dsimp only
  repeat' split
  all_goals simp

theorem accountQuery_live (n : Fin 256) : (accountQuery n s).state.live = s.live := by
  unfold accountQuery
  split <;> rfl

theorem accountPeriod_live (n : Fin 256) : (accountPeriod n s).state.live = s.live := by
  unfold accountPeriod
  dsimp only
  split <;> rfl

theorem accountClose_live (n : Fin 256) : (accountClose n s).state.live = s.live := by
  unfold accountClose
  dsimp only
  repeat' split
  all_goals rfl

theorem chargeQuote_live : (chargeQuote body s).state.live = s.live := by
  unfold chargeQuote quoteChecked quoteForAccount
  dsimp only
  repeat' split
  all_goals rfl

theorem meterSave_live (l : List (Fin 16)) : (meterSave l s).state.live = s.live := by
  unfold meterSave State.saveMeters
  split <;> simp

theorem alertModeSet_live : (alertModeSet body s).state.live = s.live := by
  unfold alertModeSet
  repeat' split
  all_goals rfl

theorem alertList_live : (alertList body s).state.live = s.live := by
  unfold alertList
  repeat' split
  all_goals rfl

theorem alertClear_live : (alertClear body s).state.live = s.live := by
  unfold alertClear alertClearAt
  repeat' split
  all_goals simp

theorem alertAck_live : (alertAck body s).state.live = s.live := by
  unfold alertAck ackAnswer
  repeat' split
  all_goals simp

theorem zoneQuery_live : (zoneQuery body s).state.live = s.live := by
  unfold zoneQuery
  repeat' split
  all_goals rfl

/-- A RESET request that is no hardware reset keeps the meters (R207, R209). -/
theorem State.reset1_climbs (tag : Byte) (pins : Pins) (hb : body ≠ [0]) :
    Climb s.live (s.reset1 tag body pins).live := by
  unfold State.reset1
  rw [if_neg fun h => hb h.1]
  refine takeRequest_climbs s _ _ _ _ (.of_eq ?_)
  repeat' split
  all_goals simp

/-! ### Frames from a press (chapters 4 and 5) -/

theorem State.onlineFrame_climbs (p : Fin 16) (f : State → State) (h : ∀ u : State, Climb u.live (f u).live) :
    Climb s.live (s.onlineFrame p f).live := by
  unfold State.onlineFrame
  split
  · exact .trans (.of_eq (s.heard_live p)) (h _)
  · exact .refl _

/-- A restart loses the whole path (R74). -/
theorem State.restart_climbs (p : Fin 16) (r : Reported) : Climb s.live (s.restart p r).live := by
  unfold State.restart
  extract_lets changed held h path s1 s2 s3 s4 s5
  have h5 : s5.live = s3.live := by
    simp only [s5, s4, State.notice_live]
    split <;> simp
  rw [State.quiesceTest_live, State.opportunityIfStill_live, h5]
  exact .trans (.of_eq (by simp [s2, s1])) (s2.loseAll_climbs p path)

theorem State.takeHello_climbs (p : Fin 16) (r : Reported) : Climb s.live (s.takeHello p r).live := by
  unfold State.takeHello
  split
  · exact .refl _
  · exact .of_eq (by simp [State.linkUp])
  · exact .trans (.of_eq (s.heard_live p)) (State.restart_climbs ..)

theorem State.takeWindow_live (p : Fin 16) (w : Byte) : (s.takeWindow p w).live = s.live := by
  have h (u : State) (a b : Nat) : (u.windowNotice p a b).live = u.live := by
    unfold State.windowNotice
    split <;> rfl
  unfold State.takeWindow
  dsimp only
  split <;> simp [h]

theorem State.takeTaken_live (p : Fin 16) (tag : Half) : (s.takeTaken p tag).live = s.live := by
  unfold State.takeTaken
  split <;> simp

/-- A delivery, and the losses of the entries it skips (R98, R99). -/
theorem State.takeDelivered_climbs (p : Fin 16) (tag : Half) : Climb s.live (s.takeDelivered p tag).live := by
  have hmisfeed (n : Nat) : (s.misfeed p n).live = s.live := by
    unfold State.misfeed
    split <;> simp
  unfold State.takeDelivered
  split
  · exact .of_eq (s.protocol_live p _)
  · rw [State.quiesceTest_live, State.opportunityIfStill_live]
    exact .trans (.trans (.of_eq (hmisfeed _)) (State.loseAll_climbs ..)) (State.deliverEntry_climbs ..)

/-- A fault and the losses it names (R76). -/
theorem State.takeFault_climbs (p : Fin 16) (k : AlertKind) (d : Byte) (tags : List Half) :
    Climb s.live (s.takeFault p k d tags).live := by
  have hunknown (u : State) (b : Bool) : (u.unknownTags p b).live = u.live := by
    unfold State.unknownTags
    split <;> simp
  have hafter (u : State) (l : List PathEntry) (h : Option Handle) : (u.afterLosses p l h).live = u.live := by
    unfold State.afterLosses
    split <;> simp
  unfold State.takeFault
  dsimp only
  rw [State.quiesceTest_live, hafter, hunknown]
  exact .trans (.of_eq (s.alert_live p k d)) (State.loseAll_climbs ..)

theorem State.badCheck_live (p : Fin 16) : (s.badCheck p).live = s.live := by
  unfold State.badCheck
  split <;> simp

/-! ### Timers, reports and buttons -/

theorem State.unbindExpiry_live (p : Fin 16) : (s.unbindExpiry p).live = s.live := by
  unfold State.unbindExpiry
  repeat' split
  all_goals simp

theorem State.endTransmission_live (p : Fin 16) (t : Transmission) : (s.endTransmission p t).live = s.live := by
  simp [State.endTransmission, State.sendData]

theorem State.takeQueueEvent_live (c : Fin 8) : (s.takeQueueEvent c).live = s.live :=
  (foldl_live (fun s p => s.bindEvent p) (fun s p => s.bindEvent_live p) _ _).trans rfl

theorem State.buttonAt_live (z : Fin 4) : (s.buttonAt z).live = s.live := by
  unfold State.buttonAt
  split <;> simp

theorem execStoreWriteBegin_live (t : State) (h : execStoreWriteBegin s = .next t) : t.live = s.live := by
  unfold execStoreWriteBegin at h
  split at h
  · split at h
    · exact Host.Outcome.next.inj h ▸ s.wearOut_live
    · split at h
      · exact Host.Outcome.next.inj h ▸ State.advanceWrite_live (s.mapStore _)
      · cases h
      · exact Host.Outcome.next.inj h ▸ rfl
  · exact Host.Outcome.next.inj h ▸ rfl

/-! ### Every command, and every step -/

/-- The next state of an outcome that is one. -/
theorem climb_of_next {u t : State} (h : (Host.Outcome.next u : Host.Outcome State Fault Refusal) = .next t)
    (k : Climb s.live u.live) : Climb s.live t.live := Host.Outcome.next.inj h ▸ k

/-- A command that acts on a condition and passes without effect otherwise (log entry 8). -/
theorem ite_climbs {c : Prop} [Decidable c] {u : State} (k : Climb s.live u.live) :
    Climb s.live (if c then u else s).live := by
  split
  · exact k
  · exact .refl _

/-- The commands that may set the meters anew: the hardware resets (R145) and the scan's load (R162). -/
def setsMeters : Instr → Bool
  | .powerOnReset _ => true
  | .rstPinReset _ => true
  | .resetHard .. => true
  | .resetSoft _ body => decide (body = [0])
  | .scanReadDone => true
  | _ => false

/-- Between a hardware reset with its scan's load and the next, the meters climb (R146). -/
theorem exec_climbs (c : Instr) (t : State) (hkeeps : setsMeters c = false) (h : exec c s = .next t) :
    Climb s.live t.live := by
  have request {typ tag : Byte} {inScan : Bool} {own : State → Answer} (k : (own s).state.live = s.live) :
      Climb s.live (takeRequest typ tag inScan own s).live := takeRequest_climbs s typ tag inScan own (.of_eq k)
  cases c with
  | powerOnReset pins => cases hkeeps
  | rstPinReset pins => cases hkeeps
  | resetHard tag body pins => cases hkeeps
  | resetSoft tag body => exact climb_of_next s h (s.reset1_climbs body tag s.pins (of_decide_eq_false hkeeps))
  | identify tag body => exact climb_of_next s h (request (noBody_live s body _ rfl))
  | status tag body => exact climb_of_next s h (request (noBody_live s body _ rfl))
  | modeSetRun tag body => exact climb_of_next s h (request (modeSet_live s body))
  | modeSetQuiesce tag body => exact climb_of_next s h (request (modeSet_live s body))
  | fetchNotices tag body => exact climb_of_next s h (request (fetchNotices_live s body))
  | attnMask tag body => exact climb_of_next s h (request (attnMask_live s body))
  | attnClear tag body => exact climb_of_next s h (request (attnClear_live s body))
  | jobOpen tag body => exact climb_of_next s h (request (jobOpen_live s body))
  | sheetBegin tag body => exact climb_of_next s h (request (longHandleRequest_live s body _ (sheetBegin_live s)))
  | faceData tag body => exact climb_of_next s h (request (longHandleRequest_live s body _ (faceData_live s)))
  | jobClose tag body => exact climb_of_next s h (request (handleRequest_live s body _ (jobClose_live s)))
  | jobCancel tag body => exact climb_of_next s h (request (handleRequest_live s body _ (jobCancel_live s)))
  | jobQuery tag body => exact climb_of_next s h (request (handleRequest_live s body _ fun _ _ => rfl))
  | jobList tag body => exact climb_of_next s h (request (jobList_live s body))
  | jobRelease tag body => exact climb_of_next s h (request (handleRequest_live s body _ (jobRelease_live s)))
  | jobRequeue tag body => exact climb_of_next s h (request (handleRequest_live s body _ (jobRequeue_live s)))
  | filterSet tag body => exact climb_of_next s h (request (filterSet_live s body))
  | filterEnable tag body => exact climb_of_next s h (request (filterEnable_live s body))
  | filterQuery tag body => exact climb_of_next s h (request (filterQuery_live s body))
  | classSet tag body => exact climb_of_next s h (request (classSet_live s body))
  | classQuery tag body => exact climb_of_next s h (request (classQuery_live s body))
  | pressSet tag body => exact climb_of_next s h (request (pressSet_live s body))
  | pressEnable tag body =>
    exact climb_of_next s h (takeRequest_climbs s _ _ _ _
      (pressRequest_climbs s body _ fun p => .of_eq (pressEnable_live s p)))
  | pressDisable tag body =>
    exact climb_of_next s h (takeRequest_climbs s _ _ _ _
      (pressRequest_climbs s body _ fun p => .of_eq (pressDisable_live s p)))
  | pressQuery tag body =>
    exact climb_of_next s h (takeRequest_climbs s _ _ _ _ (pressRequest_climbs s body _ fun _ => .refl _))
  | pressWriteoff tag body =>
    exact climb_of_next s h (takeRequest_climbs s _ _ _ _ (pressRequest_climbs s body _ (pressWriteoff_climbs s)))
  | planSet tag body => exact climb_of_next s h (request (planSet_live s body))
  | planQuery tag body => exact climb_of_next s h (request (planQuery_live s body))
  | accountOpen tag body => exact climb_of_next s h (request (accountOpen_live s body))
  | accountSet tag body => exact climb_of_next s h (request (accountSet_live s body))
  | accountAdjust tag body => exact climb_of_next s h (request (accountAdjust_live s body))
  | accountQuery tag body => exact climb_of_next s h (request (accountRequest_live s body _ (accountQuery_live s)))
  | accountPeriod tag body => exact climb_of_next s h (request (accountRequest_live s body _ (accountPeriod_live s)))
  | accountClose tag body => exact climb_of_next s h (request (accountRequest_live s body _ (accountClose_live s)))
  | chargeQuote tag body => exact climb_of_next s h (request (chargeQuote_live s body))
  | meterRead tag body => exact climb_of_next s h (request (pressSetRequest_live s body _ fun _ => rfl))
  | meterSave tag body => exact climb_of_next s h (request (pressSetRequest_live s body _ (meterSave_live s)))
  | storeQuery tag body => exact climb_of_next s h (request (noBody_live s body _ rfl))
  | alertModeSet tag body => exact climb_of_next s h (request (alertModeSet_live s body))
  | alertList tag body => exact climb_of_next s h (request (alertList_live s body))
  | alertClear tag body => exact climb_of_next s h (request (alertClear_live s body))
  | alertAckPress tag body => exact climb_of_next s h (request (alertAck_live s body))
  | alertAckZone tag body => exact climb_of_next s h (request (alertAck_live s body))
  | zoneQuery tag body => exact climb_of_next s h (request (zoneQuery_live s body))
  | unknownRequest typ tag body =>
    refine climb_of_next s h ?_
    split
    · exact .refl _
    · exact request rfl
  | requestDropped typ tag body => exact climb_of_next s h (ite_climbs s (.of_eq s.dropRequest_live))
  | frameBadLength len => exact climb_of_next s h (ite_climbs s (.of_eq rfl))
  | frameBadCheck typ tag body check => exact climb_of_next s h (ite_climbs s (.of_eq rfl))
  | csDeasserted mosi =>
    refine climb_of_next s h ?_
    split <;> exact .of_eq rfl
  | replyClockedOut => exact climb_of_next s h (.of_eq rfl)
  | hello p model serial caps grades win => exact climb_of_next s h (s.takeHello_climbs p _)
  | window p win => exact climb_of_next s h (s.onlineFrame_climbs p _ fun u => .of_eq (u.takeWindow_live p win))
  | taken p tag => exact climb_of_next s h (s.onlineFrame_climbs p _ fun u => .of_eq (u.takeTaken_live p tag))
  | delivered p tag => exact climb_of_next s h (s.onlineFrame_climbs p _ fun u => u.takeDelivered_climbs p tag)
  | fault p kind detail tags =>
    refine climb_of_next s h (s.onlineFrame_climbs p _ fun u => ?_)
    split
    · exact u.takeFault_climbs p _ detail tags
    · exact .of_eq (u.protocol_live p _)
  | clear p kind detail =>
    exact climb_of_next s h (s.onlineFrame_climbs p _ fun u => .of_eq (u.conditionEnd_live p _ _))
  | beat p => exact climb_of_next s h (s.onlineFrame_climbs p _ fun u => .refl _)
  | feedBadCheck p typ len body check => exact climb_of_next s h (ite_climbs s (.of_eq (s.badCheck_live p)))
  | feedBadFrame p typ body =>
    exact climb_of_next s h (ite_climbs s (s.onlineFrame_climbs p _ fun u => .of_eq (u.protocol_live p _)))
  | probeTimerExpiry p => exact climb_of_next s h (ite_climbs s (.of_eq (s.probe_live p)))
  | silenceDeadline p => exact climb_of_next s h (ite_climbs s (.of_eq (s.alert_live p _ _)))
  | stallDeadline p =>
    refine climb_of_next s h (.of_eq ?_)
    split <;> simp
  | unbindDeadline p => exact climb_of_next s h (ite_climbs s (.of_eq (s.unbindExpiry_live p)))
  | retryDeadline p kind => exact climb_of_next s h (ite_climbs s (.of_eq (s.removeEntries_live p _ _)))
  | transmissionEnd p =>
    refine climb_of_next s h (.of_eq ?_)
    split <;> simp [State.endTransmission_live]
  | queueEvent cls => exact climb_of_next s h (ite_climbs s (.of_eq (s.takeQueueEvent_live cls)))
  | availabilityRiseReport p account =>
    exact climb_of_next s h (ite_climbs s (.of_eq (State.opportunity_live (s.mapMu _) p)))
  | ackInputChange zone active => exact climb_of_next s h (.of_eq rfl)
  | buttonDeadline zone => exact climb_of_next s h (ite_climbs s (.of_eq (s.buttonAt_live zone)))
  | storeWriteBegin => exact .of_eq (execStoreWriteBegin_live s t h)
  | storeWriteComplete =>
    refine climb_of_next s h (.of_eq ?_)
    split <;> simp
  | storeEraseBegin =>
    refine climb_of_next s h (.of_eq ?_)
    repeat' split
    all_goals rfl
  | storeEraseEnd residue =>
    refine climb_of_next s h (.of_eq ?_)
    split <;> simp
  | scanReadDone => cases hkeeps
  | scanEnd => exact climb_of_next s h (ite_climbs s (.of_eq s.endScan_live))

/-- The counters that a hardware reset leaves, and those that the scan loads, are in range. -/
theorem State.hardReset_bounded (cause : ResetCause) (pins : Pins) : (s.hardReset cause pins).metersBounded := by
  rw [State.metersBounded_iff]
  intro p
  rw [State.hardReset_live]
  rfl

theorem State.reset1_bounded (tag : Byte) (pins : Pins) (hs : s.metersBounded) :
    (s.reset1 tag body pins).metersBounded := by
  by_cases hb : body = [0]
  · unfold State.reset1
    split
    · exact s.hardReset_bounded _ pins
    · refine (takeRequest_climbs s _ _ _ _ ?_).inRange hs
      rw [hb]
      exact .refl _
  · exact (s.reset1_climbs body tag pins hb).inRange hs

/-- Every command keeps the meters in range (R145). -/
theorem exec_bounded (c : Instr) (t : State) (hs : s.metersBounded) (h : exec c s = .next t) : t.metersBounded := by
  by_cases hkeeps : setsMeters c = false
  · exact (exec_climbs s c t hkeeps h).inRange hs
  · unfold setsMeters at hkeeps
    split at hkeeps
    · exact Host.Outcome.next.inj h ▸ s.hardReset_bounded _ _
    · exact Host.Outcome.next.inj h ▸ s.hardReset_bounded _ _
    · exact Host.Outcome.next.inj h ▸ s.reset1_bounded _ _ _ hs
    · exact Host.Outcome.next.inj h ▸ s.reset1_bounded _ _ _ hs
    · refine Host.Outcome.next.inj h ▸ ?_
      split
      · rw [State.metersBounded_iff]
        intro p
        rw [State.readDone_live]
        exact s.store.loaded_inRange p
      · exact hs
    · exact absurd rfl hkeeps

@[simp] theorem State.tick_live : s.tick.live = s.live := by
  have k := State.advanceWrite_live { s with tb := s.tb + 1 }
  unfold State.tick
  extract_lets u
  split
  exact k

end

/-- Settles O6: every command counts up to the maximum and no further, sets the meters to 0, or loads records, which are in
range. -/
theorem metersStayInRange : Obligations.MetersStayInRange := by
  intro s t hs h
  unfold step at h
  split at h
  · rw [← Host.Outcome.next.inj h, State.metersBounded_iff, State.tick_live]
    exact hs
  · next c rest _ => exact exec_bounded { s with pending := rest } c t hs h

/-- Settles O7: what a command adds to a meter in range stops at the maximum, and no other command than those named writes
a counter. -/
theorem metersNeverDecrease : Obligations.MetersNeverDecrease := by
  intro c s t hs hwf hreset hload h
  have hkeeps : setsMeters c = false := by
    unfold setsMeters
    split
    · cases hreset
    · cases hreset
    · cases hreset
    · refine decide_eq_false ?_
      rintro rfl
      cases hwf
    · exact absurd rfl hload
    · rfl
  exact (exec_climbs s c t hkeeps h).le hs

end Sys2Proof.Machine
end

section
/-! Meter records (R150): the bytes of a record in range, read back field by field. -/

namespace Sys2Proof.Machine

/-- The first thirty bytes of a record, which its check covers. -/
def recordHead (p : Fin 16) (n : Nat) (c : Counters) : List Byte :=
  0xA5 :: (u8 p.val ++ u32 n ++ c.bytes ++ List.replicate 8 0)

theorem recordBytes_eq (p : Fin 16) (n : Nat) (c : Counters) :
    recordBytes p n c = recordHead p n c ++ checkBytes (crc16 (recordHead p n c)) := rfl

section
variable (p : Fin 16) (n : Nat) (c : Counters) (tail : List Byte)

theorem recordHead_length : (recordHead p n c).length = 30 := rfl

/-! ### The fields at their places -/

theorem byteAt_recordHead_mark : byteAt (recordHead p n c ++ tail) 0 = 0xA5 := rfl

theorem toFin?_recordHead_press : toFin? 16 (byteAt (recordHead p n c ++ tail) 1).toNat = some p := by
  have h : byteAt (recordHead p n c ++ tail) 1 = BitVec.ofNat 8 p.val := rfl
  rw [h, byte_index 16 p (by decide), toFin?_val]

theorem word_recordHead_sequence (hn : n ≤ Config.maxSequence) : word (recordHead p n c ++ tail) 2 = n := by
  unfold Config.maxSequence at hn
  exact be32_u32 n (by omega)

theorem countersAt_recordHead (hc : c.inRange = true) : countersAt (recordHead p n c ++ tail) = c := by
  obtain ⟨hmono, hcolor, hdelivered, hspoiled⟩ := c.inRange_iff.mp hc
  have read {m : Nat} (hm : m ≤ maxMeter) := be32_u32 m (by unfold maxMeter at hm; omega)
  have hread : countersAt (recordHead p n c ++ tail) = ⟨c.mono, c.color, c.delivered, c.spoiled⟩ :=
    Counters.mk.injEq .. ▸ ⟨read hmono, read hcolor, read hdelivered, read hspoiled⟩
  exact hread

theorem half_recordHead_check (k : Half) : half (recordHead p n c ++ checkBytes k) 30 = k.toNat :=
  be16_u16 k.toNat k.isLt

/-! ### The record -/

/-- A record in range passes every test of R150. -/
theorem parseRecord_recordBytes (h1 : 1 ≤ n) (hn : n ≤ Config.maxSequence) (hc : c.inRange = true) :
    parseRecord (recordBytes p n c) = some { press := p, sequence := n, counters := c } := by
  have htake : (recordBytes p n c).take 30 = recordHead p n c := List.take_left' (recordHead_length p n c)
  unfold parseRecord
  rw [htake, recordBytes_eq, toFin?_recordHead_press, half_recordHead_check, byteAt_recordHead_mark,
    word_recordHead_sequence p n c _ hn, countersAt_recordHead p n c _ hc]
  exact if_pos ⟨rfl, rfl, h1, hn, hc⟩

/-- A slot that begins with the mark is neither free nor void, so it is the record that it reads back as. -/
theorem slotKindOf_marked {l : List Byte} {r : MeterRecord} (h : parseRecord (0xA5 :: l) = some r) :
    slotKindOf (0xA5 :: l) = .record r := by
  have hfree : (0xA5 :: l).all (fun b => decide (b = (0xFF : Byte))) = false := rfl
  have hvoid : (0xA5 :: l).all (fun b => decide (b = (0 : Byte))) = false := rfl
  simp only [slotKindOf, hfree, hvoid, h, Bool.false_eq_true, if_false]

end

/-- Settles O14: the mark keeps the slot from reading as free or void, and each field reads back at its place. -/
theorem meterRecordsReadBack : Obligations.MeterRecordsReadBack := by
  intro p n c h1 hn hc
  refine ⟨recordBytes_length p n c, ?_⟩
  exact slotKindOf_marked (parseRecord_recordBytes p n c h1 hn hc)

end Sys2Proof.Machine
end

section
/-! METER_READ, METER_SAVE and STORE_QUERY (R149, R159, R160): the press set of a body read back, and the bodies of the
replies field by field. -/

namespace Sys2Proof.Machine

/-! ### Press sets (R149, R159, R211) -/

/-- An empty press set names all 16 presses, and any other the presses of its bits. -/
theorem pressSetOf_eq (n : Nat) :
    pressSetOf n = (List.finRange 16).filter fun p => decide (n = 0) || n.testBit p.val := by
  unfold pressSetOf
  by_cases h : n = 0
  · simp only [h, decide_true, Bool.true_or, List.filter_true, if_true]
  · simp only [h, decide_false, Bool.false_or, if_false]

theorem pressSetRequest_u16 {n : Nat} (hn : n < 65536) (own : List (Fin 16) → State → Answer) (s : State) :
    pressSetRequest (u16 n) own s = own ((List.finRange 16).filter fun p => decide (n = 0) || n.testBit p.val) s := by
  rw [← pressSetOf_eq]
  exact congrArg (fun k => own (pressSetOf k) s) (be16_u16 n hn)

/-- Adding up where a condition holds is adding up the elements for which it holds. -/
theorem foldl_add_if {α : Type} (f : α → Bool) (g : α → Nat) (l : List α) (m : Nat) :
    l.foldl (fun n x => n + if f x then g x else 0) m = m + ((l.filter f).map g).sum := by
  induction l generalizing m with
  | nil => rfl
  | cons x l ih =>
    rw [List.foldl_cons, ih, List.filter_cons]
    cases f x with
    | false => simp only [Bool.false_eq_true, if_false, Nat.add_zero]
    | true => simp only [if_true, List.map_cons, List.sum_cons, Nat.add_assoc]

theorem set16_eq (f : Fin 16 → Bool) :
    set16 f = u16 (((List.finRange 16).filter fun p => f p).map fun p => 2 ^ p.val).sum := by
  rw [set16, foldl_add_if, Nat.zero_add]

/-! ### The three requests -/

/-- METER_SAVE marks the presses named and leaves every other part of the store (R159). -/
theorem State.saveMeters_eq (named : Fin 16 → Bool) (s : State) :
    ∃ marks : Vector Mark 16,
      s.saveMeters ((List.finRange 16).filter named) = { s with store := { s.store with marks, saveOwed := true } } ∧
      ∀ p : Fin 16, marks[p] = { s.store.marks[p] with pending := s.store.marks[p].pending || named p } := by
  obtain ⟨marks, heq, hmarks⟩ := State.markAll_eq ((List.finRange 16).filter named) s
  refine ⟨marks, by rw [State.saveMeters, heq]; rfl, fun p => ?_⟩
  rw [hmarks p]
  cases h : named p <;> simp [h]

theorem FailReason.bytes_eq : FailReason.bytes = fun r : FailReason => match r with
    | .erase k => u8 0 ++ 1 :: u8 k.val
    | .worn => u8 1 ++ [0] := by
  funext r
  cases r <;> rfl

/-- Settles O46: each request is taken, and its press set and its fields are those named. -/
theorem metersReadSavedStoreReported : Obligations.MetersReadSavedStoreReported := by
  intro tag n s ht hn named set
  refine ⟨?_, fun hfailed => ?_, fun hfailed => ?_, ?_⟩
  · change Host.Outcome.next (takeRequest 0x39 tag false (pressSetRequest (u16 n) meterRead) s) = _
    rw [takeRequest_taken _ _ _ _ _ ht, pressSetRequest_u16 hn]
    simp only [meterRead, accept]
    have hfigures : s.meterBytes = fun p => _ := funext fun p => by
      rw [State.meterBytes, Counters.bytes, Store.storedBytes]
    rw [hfigures]
  · change Host.Outcome.next (takeRequest 0x40 tag false (pressSetRequest (u16 n) meterSave) s) = _
    rw [takeRequest_taken _ _ _ _ _ ht, pressSetRequest_u16 hn, meterSave, if_pos hfailed]
    rfl
  · obtain ⟨marks, heq, hmarks⟩ := State.saveMeters_eq named s
    refine ⟨marks, hmarks, ?_⟩
    change Host.Outcome.next (takeRequest 0x40 tag false (pressSetRequest (u16 n) meterSave) s) = _
    rw [takeRequest_taken _ _ _ _ _ ht, pressSetRequest_u16 hn, meterSave, if_neg hfailed, heq]
    simp only [accept, Store.pendingBytes, set16_eq, set]
  · change Host.Outcome.next (takeRequest 0x41 tag false (noBody [] storeQuery) s) = _
    rw [takeRequest_taken _ _ _ _ _ ht, noBody, if_pos rfl]
    simp only [storeQuery, accept, Store.report, Store.roleCode, Store.pendingBytes, set16_eq, FailReason.bytes_eq, set]
    rfl

end Sys2Proof.Machine
end

section
/-! The slots that a store write passes on its way (R152, R153; log entry 13): the bytes, the counts, and the roles and
write slot that any number of them leave. -/

namespace Sys2Proof.Machine

/-- The addresses of a slot. -/
def inSlot (x : Fin 4 × Nat) (a : Nat) : Prop := slotAddress x.1 x.2 ≤ a ∧ a < slotAddress x.1 x.2 + 32

/-- The write slot behind the last slot of a list, or as it was where the list is empty. -/
def behind (l : List (Fin 4 × Nat)) (i : Nat) : Nat := (l.getLast?.map fun x => x.2 + 1).getD i

/-- How many slots of a list lie in a sector. -/
def passedIn (l : List (Fin 4 × Nat)) (k : Fin 4) : Nat := (l.filter fun x => decide (x.1 = k)).length

theorem behind_cons (x : Fin 4 × Nat) (l : List (Fin 4 × Nat)) (i : Nat) : behind (x :: l) i = behind l (x.2 + 1) := by
  cases h : l.getLast? with
  | none => rw [List.getLast?_eq_none_iff.mp h]; rfl
  | some y => simp [behind, List.getLast?_cons, h]

/-! ### Programming over bytes -/

/-- Programming zeros clears every byte programmed. -/
theorem flashProgramAll_zeros {m : Memory} (h : Memory.wf Config.erasedByte m = true) (x : Fin 4 × Nat) {a : Nat}
    (ha : inSlot x a) :
    Memory.read Config.erasedByte
      (flashProgramAll m (slotAddress x.1 x.2) (List.replicate Config.slotBytes 0)) a = 0 := by
  obtain ⟨i, rfl⟩ := Nat.exists_eq_add_of_le ha.1
  have hi : i < (List.replicate Config.slotBytes (0 : Byte)).length := by
    rw [List.length_replicate]
    exact Nat.lt_of_add_lt_add_left ha.2
  rw [flashProgramAll_at _ _ _ _ hi h, List.getElem_replicate]
  exact BitVec.and_zero

/-- Programming the 32 bytes of a slot leaves every address outside it. -/
theorem flashProgramAll_outside (m : Memory) (x : Fin 4 × Nat) {l : List Byte} (hl : l.length = 32) {a : Nat}
    (ha : ¬ inSlot x a) :
    Memory.read Config.erasedByte (flashProgramAll m (slotAddress x.1 x.2) l) a = Memory.read Config.erasedByte m a :=
  flashProgramAll_other _ _ _ _ (by unfold inSlot at ha; omega)

/-! ### One slot, and any number of them -/

section
variable (st : Store)

/-- Without a SPARE there is none to move to. -/
theorem Store.moveToSpare_none (h : st.spare = none) : st.moveToSpare = st := by simp only [Store.moveToSpare, h]

theorem Store.moveToSpare_some {k : Fin 4} (h : st.spare = some k) :
    st.moveToSpare = { st with active := k, spare := none, writeSlot := 0 } := by simp only [Store.moveToSpare, h]

theorem Store.moveToSpare_counts : st.moveToSpare.counts = st.counts := by
  unfold Store.moveToSpare
  split <;> rfl

/-- A slot passed counts as void and no longer as free (R160). -/
theorem Store.passSlot_counts (x : Fin 4 × Nat) : (st.passSlot x).counts = st.counts.set x.1 { st.counts[x.1] with
    free := st.counts[x.1].free - 1, void := st.counts[x.1].void + 1 } := by
  unfold Store.passSlot
  extract_lets v u
  split
  · exact u.moveToSpare_counts
  · rfl

/-- What leaves the records changes at most the operation, the roles, the write slot, the counts and the flash. -/
theorem Store.SameRecords.frame {st t : Store} (h : st.SameRecords t) : t = { st with
    op := t.op, active := t.active, spare := t.spare, writeSlot := t.writeSlot, counts := t.counts
    flash := t.flash } := by
  obtain ⟨h1, h2, h3, h4, h5, h6, h7, h8, h9, h10, h11, h12⟩ := h
  cases t
  cases st
  subst h1 h2 h3 h4 h5 h6 h7 h8 h9 h10 h11 h12
  rfl

/-- Every byte of a slot passed reads as 0, and no other byte changes. -/
theorem Store.passAll_bytes (l : List (Fin 4 × Nat)) (h : Memory.wf Config.erasedByte st.flash = true) :
    (∀ x ∈ l, ∀ a, inSlot x a → Memory.read Config.erasedByte (l.foldl Store.passSlot st).flash a = 0) ∧
      ∀ a, (∀ x ∈ l, ¬ inSlot x a) →
        Memory.read Config.erasedByte (l.foldl Store.passSlot st).flash a =
          Memory.read Config.erasedByte st.flash a := by
  induction l generalizing st with
  | nil => exact ⟨fun _ hx => absurd hx List.not_mem_nil, fun _ _ => rfl⟩
  | cons x l ih =>
    have hflash := st.passSlot_flash x
    have hwf : Memory.wf Config.erasedByte (st.passSlot x).flash = true := hflash ▸ flashProgramAll_wf _ _ _ h
    obtain ⟨hzero, hother⟩ := ih (st.passSlot x) hwf
    refine ⟨fun y hy a ha => ?_, fun a ha => ?_⟩
    · by_cases hl : ∃ z ∈ l, inSlot z a
      · obtain ⟨z, hz, hza⟩ := hl
        exact hzero z hz a hza
      · have hyx : y = x := (List.mem_cons.mp hy).resolve_right fun hyl => hl ⟨y, hyl, ha⟩
        rw [List.foldl_cons, hother a fun z hz hza => hl ⟨z, hz, hza⟩, hflash]
        exact flashProgramAll_zeros h x (hyx ▸ ha)
    · rw [List.foldl_cons, hother a fun z hz => ha z (List.mem_cons_of_mem x hz), hflash]
      exact flashProgramAll_outside _ x rfl (ha x List.mem_cons_self)

/-- Each slot passed counts as void and no longer as free (R160). -/
theorem Store.passAll_counts (l : List (Fin 4 × Nat)) (k : Fin 4) :
    (l.foldl Store.passSlot st).counts[k] = { st.counts[k] with
      free := st.counts[k].free - passedIn l k, void := st.counts[k].void + passedIn l k } := by
  induction l generalizing st with
  | nil => rfl
  | cons x l ih =>
    rw [List.foldl_cons, ih, Store.passSlot_counts]
    by_cases hx : x.1 = k
    · subst hx
      rw [getElem_set_same]
      simp [passedIn, Nat.sub_sub, Nat.add_assoc, Nat.add_comm 1]
    · rw [getElem_set_other _ (Ne.symm hx)]
      simp [passedIn, hx]

variable {st}

/-- A slot passed that is not the last of ACTIVE, or that has no SPARE behind it, leaves the roles. -/
theorem Store.passSlot_stays {x : Fin 4 × Nat} (h : x.2 ≠ 255 ∨ st.spare = none) :
    (st.passSlot x).active = st.active ∧ (st.passSlot x).spare = st.spare ∧ (st.passSlot x).writeSlot = x.2 + 1 := by
  unfold Store.passSlot
  extract_lets v u
  split
  · next hlast =>
    have hnone : u.spare = none := h.resolve_left fun hx => hx (Nat.succ.inj (of_decide_eq_true hlast))
    rw [u.moveToSpare_none hnone]
    exact ⟨rfl, rfl, rfl⟩
  · exact ⟨rfl, rfl, rfl⟩

/-- With the last slot of ACTIVE passed SPARE becomes ACTIVE at once (R153). -/
theorem Store.passSlot_moves {x : Fin 4 × Nat} {k : Fin 4} (hx : x.2 = 255) (h : st.spare = some k) :
    (st.passSlot x).active = k ∧ (st.passSlot x).spare = none ∧ (st.passSlot x).writeSlot = 0 := by
  have hlast : lastSlot x = true := decide_eq_true (by rw [hx]; rfl)
  unfold Store.passSlot
  extract_lets v u
  have hspare : u.spare = some k := h
  rw [if_pos hlast, u.moveToSpare_some hspare]
  exact ⟨rfl, rfl, rfl⟩

theorem Store.passAll_stays {l : List (Fin 4 × Nat)} (h : (∀ x ∈ l, x.2 ≠ 255) ∨ st.spare = none) :
    (l.foldl Store.passSlot st).active = st.active ∧ (l.foldl Store.passSlot st).spare = st.spare ∧
      (l.foldl Store.passSlot st).writeSlot = behind l st.writeSlot := by
  induction l generalizing st with
  | nil => exact ⟨rfl, rfl, rfl⟩
  | cons x l ih =>
    obtain ⟨hactive, hspare, hwrite⟩ := Store.passSlot_stays (h.imp_left fun hl => hl x List.mem_cons_self)
    obtain ⟨ha, hs, hw⟩ :=
      ih (h.imp (fun hl y hy => hl y (List.mem_cons_of_mem x hy)) fun hn => hspare.trans hn)
    exact ⟨ha.trans hactive, hs.trans hspare, by rw [List.foldl_cons, hw, hwrite, behind_cons]⟩

theorem Store.passAll_moves {a b : List (Fin 4 × Nat)} {x : Fin 4 × Nat} {k : Fin 4} (h : st.spare = some k)
    (hx : x.2 = 255) (ha : ∀ y ∈ a, y.2 ≠ 255) :
    ((a ++ x :: b).foldl Store.passSlot st).active = k ∧ ((a ++ x :: b).foldl Store.passSlot st).spare = none ∧
      ((a ++ x :: b).foldl Store.passSlot st).writeSlot = behind b 0 := by
  obtain ⟨-, hspare, -⟩ := Store.passAll_stays (st := st) (.inl ha)
  obtain ⟨hactive, hnone, hwrite⟩ := Store.passSlot_moves hx (hspare.trans h)
  rw [List.foldl_append, List.foldl_cons]
  obtain ⟨ha', hs', hw'⟩ := Store.passAll_stays (l := b) (.inr hnone)
  exact ⟨ha'.trans hactive, hs'.trans hnone, hw'.trans (by rw [hwrite])⟩

end

/-! ### A write that comes some way on -/

/-- A write that passes none of its slots stays as it is. -/
theorem Store.passSlots_zero {st : Store} {w : WriteOp} (h : st.op = some (.write w)) : st.passSlots 0 w = st := by
  cases st
  cases h
  rfl

/-- What a write in progress changes of the store as it comes some way on. -/
theorem Store.passSlots_frame (st : Store) (n : Nat) (w : WriteOp) :
    st.passSlots n w = { st with
      op := some (.write { w with voids := w.voids.drop n })
      active := (st.passSlots n w).active, spare := (st.passSlots n w).spare
      writeSlot := (st.passSlots n w).writeSlot, counts := (st.passSlots n w).counts
      flash := (st.passSlots n w).flash } := by
  have h := Store.passAll_sameRecords (w.voids.take n) st
  unfold Store.passSlots
  rw [h.frame]

end Sys2Proof.Machine
end

section
/-! One step (log entries 1, 5 and 13): the command at the front of the queue, or a millisecond in which a write in
progress comes some way on and the events due join the queue. -/

namespace Sys2Proof.Machine

/-! ### The events that are due -/

theorem mem_dueIf {b : Bool} {c d : Instr} : c ∈ dueIf b d ↔ c = d ∧ b = true := by
  cases b <;> simp [dueIf]

theorem AlertKind.mem_all (k : AlertKind) : k ∈ AlertKind.all := List.mem_of_getElem? (AlertKind.all_code k)

section
variable (s : State)

theorem State.due_iff (t : Option Time) : s.due t = true ↔ ∃ x, t = some x ∧ reached s.tb x = true := by
  cases t <;> simp [State.due]

theorem State.probeDue_iff (p : Fin 16) : s.probeDue p = true ↔
    ∃ t, s.presses[p].link = .awaiting ∧ s.presses[p].probeDeadline = some t ∧ reached s.tb t = true := by
  simp [State.probeDue, State.due_iff]

theorem State.silenceDue_iff (p : Fin 16) : s.silenceDue p = true ↔
    ∃ t, s.presses[p].link = .online ∧ s.presses[p].lastFrame = some t ∧ s.silent p = false ∧
      reached s.tb (t + ms s.presses[p].profile.linkTimeout) = true := by
  rw [State.silenceDue, Bool.and_eq_true, Bool.and_eq_true, State.due_iff, Press.silenceAt]
  cases s.presses[p].lastFrame <;> simp [and_comm, and_left_comm]

theorem State.stallDue_iff (p : Fin 16) : (s.stallDue p).isSome = true ↔
    ∃ w, s.presses[p].watch = some w ∧ s.presses[p].stalledTag = none ∧ w.dropped = false ∧
      reached s.tb w.deadline = true := by
  rw [State.stallDue]
  cases s.presses[p].watch with
  | none => simp
  | some w =>
    simp [Option.isSome_ite, and_assoc, and_comm, and_left_comm]

theorem State.retryDue_iff (p : Fin 16) (k : AlertKind) : s.retryDue p k = true ↔
    ∃ e t, s.entry p k = some e ∧ e.state = .retryWait ∧ e.deadline = some t ∧ reached s.tb t = true := by
  rw [State.retryDue]
  cases s.entry p k <;> simp [State.due_iff]

theorem State.buttonDue_iff (z : Fin 4) : s.buttonDue z = true ↔
    ∃ t, s.zones[z].deadline = some t ∧ reached s.tb t = true := by
  rw [State.buttonDue]
  cases s.zones[z].deadline <;> simp

/-- The deadline events of one press. -/
theorem State.mem_dueAt (p : Fin 16) (c : Instr) : c ∈ s.dueAt p ↔
    (c = .probeTimerExpiry p ∧ s.probeDue p = true) ∨ (c = .silenceDeadline p ∧ s.silenceDue p = true) ∨
      (c = .stallDeadline p ∧ (s.stallDue p).isSome = true) ∨
      (c = .unbindDeadline p ∧ s.due s.presses[p].unbindDeadline = true) ∨
      ∃ k, c = .retryDeadline p k ∧ s.retryDue p k = true := by
  simp only [State.dueAt, List.mem_append, List.mem_flatMap, mem_dueIf, AlertKind.mem_all, true_and, or_assoc]

/-- The events that the state brings about. -/
theorem State.mem_dueCommands (c : Instr) : c ∈ s.dueCommands ↔
    (∃ p, c ∈ s.dueAt p) ∨ (∃ z, c = .buttonDeadline z ∧ s.buttonDue z = true) ∨
      (∃ k ∈ s.ru.reports, c = .queueEvent k) ∨
      (∃ r ∈ s.mu.rises, c = .availabilityRiseReport r.press r.account) ∨
      (c = .storeWriteBegin ∧ s.store.writeDue = true) ∨
      (c = .storeEraseBegin ∧ s.store.eraseDue = true) ∨ (c = .scanEnd ∧ s.store.scan = some .ending) := by
  have hplace (q : Prop) {x y z : Prop} : q ∨ x ∨ y ∨ z ↔ x ∨ y ∨ q ∨ z := by
    rw [or_left_comm (b := x), or_left_comm (b := y)]
  rw [hplace (∃ z, c = .buttonDeadline z ∧ s.buttonDue z = true)]
  simp only [State.dueCommands, List.mem_append, List.mem_flatMap, List.mem_map, mem_dueIf, List.mem_finRange,
    true_and, or_assoc, decide_eq_true_eq, eq_comm (a := c)]

/-! ### A millisecond -/

/-- What a tick changes: the time, the queue, the choices and, with a write in progress, the store. -/
theorem State.tick_eq : ∃ (store : Store) (l : List Instr) (c : Nat),
    s.tick = { s with tb := s.tb + 1, pending := l, choices := c, store } ∧ l.Perm s.tick.dueCommands ∧
      ((∃ w n, s.store.op = some (.write w) ∧ n ≤ w.voids.length ∧ store = s.store.passSlots n w) ∨
        (∀ w, s.store.op ≠ some (.write w)) ∧ store = s.store) := by
  unfold State.tick
  extract_lets u
  have hperm := shuffle_perm u.dueCommands.length u.dueCommands u.choices
  have hadvance := State.advanceWrite_spec { s with tb := s.tb + 1 }
  change (∃ w n c, s.store.op = some (.write w) ∧ n ≤ w.voids.length ∧ u = _) ∨
    (∀ w, s.store.op ≠ some (.write w)) ∧ u = _
    at hadvance
  split
  next l c he =>
    rw [he] at hperm
    refine ⟨u.store, l, c, ?_, hperm, ?_⟩
    · obtain ⟨_, _, _, -, -, hu⟩ | ⟨-, hu⟩ := hadvance <;> rw [hu]
    · refine hadvance.imp ?_ fun ⟨hnone, hu⟩ => ⟨hnone, by rw [hu]⟩
      rintro ⟨w, n, _, hw, hn, hu⟩
      exact ⟨w, n, hw, hn, by rw [hu]⟩

end

/-- Settles O1: the front command by definition; a millisecond by what a write passes on its way, and by the events
that are due in the state that it leaves. -/
theorem stepRunsFrontCommand : Obligations.StepRunsFrontCommand := by
  refine ⟨fun c rest s => rfl, fun s hempty => ?_⟩
  obtain ⟨store, l, c, htick, hperm, hstore⟩ := s.tick_eq
  have hstep : step s = .next s.tick := by simp only [step, hempty]
  have hscan : store.scan = s.store.scan := by
    obtain ⟨w, n, -, -, rfl⟩ | ⟨-, rfl⟩ := hstore
    · rw [Store.passSlots_frame]
    · rfl
  rw [htick] at hperm hstep
  refine ⟨_, hstep, rfl, rfl, fun hnone => ?_, fun w hw => ?_, hperm, fun i => ?_⟩
  · obtain ⟨w, n, hw, -⟩ | ⟨-, h⟩ := hstore
    · exact absurd hw (hnone w)
    · exact h
  · obtain ⟨w', n, hw', hn, rfl⟩ | ⟨hnone, -⟩ := hstore
    · obtain rfl : w' = w := by
        rw [hw] at hw'
        cases hw'
        rfl
      refine ⟨n, hn, ?_, s.store.passSlots_frame n w', fun hs => ?_, fun k => ?_, fun h => ?_, ?_⟩
      · rintro rfl
        exact Store.passSlots_zero hw
      · exact s.store.passAll_bytes _ hs.2
      · exact s.store.passAll_counts _ k
      · exact Store.passAll_stays h
      · intro k a x b hspare hpassed hx ha
        have hmoved := Store.passAll_moves (b := b) hspare hx ha
        rw [← hpassed] at hmoved
        exact hmoved
    · exact absurd hw (hnone w)
  · rw [← hscan, hperm.mem_iff, State.mem_dueCommands]
    simp only [State.mem_dueAt, State.probeDue_iff, State.silenceDue_iff, State.stallDue_iff, State.due_iff,
      State.retryDue_iff, State.buttonDue_iff, exists_or, or_assoc, ← exists_and_left]
    exact Iff.rfl

end Sys2Proof.Machine
end

section
/-! The meter store's writes (R148, R153 to R155, R159): the press and the place that a write is for, what its begin
and its completion leave, and the fill step. -/

namespace Sys2Proof.Machine

/-! ### The press a write is for (R153) -/

/-- The first press of a condition, in ascending order. -/
theorem head?_filter_finRange (f : Fin 16 → Bool) (p : Fin 16) :
    ((List.finRange 16).filter f).head? = some p ↔ f p = true ∧ ∀ q : Fin 16, q < p → f q = false := by
  rw [List.head?_filter, ← Fin.find?_eq_find?_finRange, Fin.find?_eq_some_iff]

theorem filter_finRange_eq_nil (f : Fin 16 → Bool) :
    (List.finRange 16).filter f = [] ↔ ∀ q : Fin 16, f q = false := by simp

/-- The lowest forced press, or with none forced the lowest pending one. -/
theorem Store.chosen_iff (st : Store) (p : Fin 16) : st.chosen = some p ↔
    ((st.marks[p].pending = true ∧ st.marks[p].forced = true) ∧
      ∀ q : Fin 16, q < p → ¬ (st.marks[q].pending = true ∧ st.marks[q].forced = true)) ∨
    ((∀ q : Fin 16, ¬ (st.marks[q].pending = true ∧ st.marks[q].forced = true)) ∧ st.marks[p].pending = true ∧
      ∀ q : Fin 16, q < p → ¬ st.marks[q].pending = true) := by
  simp only [← Bool.and_eq_true, Bool.not_eq_true]
  have hforced := head?_filter_finRange (fun q => st.marks[q].pending && st.marks[q].forced) p
  have hpending := head?_filter_finRange (fun q => st.marks[q].pending) p
  have hnone := filter_finRange_eq_nil fun q => st.marks[q].pending && st.marks[q].forced
  unfold Store.chosen
  split
  · next x l hl =>
    have hsome : ¬ ∀ q : Fin 16, (st.marks[q].pending && st.marks[q].forced) = false := fun h => by
      rw [Store.forcedList, hnone.mpr h] at hl
      cases hl
    rw [← hforced, ← Store.forcedList, hl]
    simp only [hsome, false_and, or_false, List.head?_cons]
  · next hl =>
    have hall := hnone.mp hl
    simp only [hall, Bool.false_eq_true, false_and, false_or, implies_true, true_and]
    exact hpending

/-- A write that is due is for some press. -/
theorem Store.chosen_of_writeDue {st : Store} (h : st.writeDue = true) : ∃ p, st.chosen = some p := by
  simp only [Store.writeDue, Bool.and_eq_true, Bool.not_eq_true', List.isEmpty_eq_false_iff] at h
  obtain ⟨⟨-, hpending⟩, -⟩ := h
  unfold Store.chosen
  split
  · exact ⟨_, rfl⟩
  · exact Option.isSome_iff_exists.mp (List.isSome_head?.mpr hpending)

/-! ### The place of its record (R153) -/

/-- The slots of a sector from one on. -/
def slotsFrom (k : Fin 4) (i n : Nat) : List (Fin 4 × Nat) := (List.range' i n).map fun i => (k, i)

theorem slotsFrom_succ (k : Fin 4) (i n : Nat) : slotsFrom k i (n + 1) = (k, i) :: slotsFrom k (i + 1) n := rfl

theorem mem_slotsFrom {k : Fin 4} {i n : Nat} {x : Fin 4 × Nat} :
    x ∈ slotsFrom k i n ↔ x.1 = k ∧ i ≤ x.2 ∧ x.2 < i + n := by
  obtain ⟨k', j⟩ := x
  simp [slotsFrom, eq_comm, and_comm]

@[simp] theorem slotsFrom_length (k : Fin 4) (i n : Nat) : (slotsFrom k i n).length = n := by simp [slotsFrom]

theorem slotsFrom_append (k : Fin 4) (i m n : Nat) :
    slotsFrom k i (m + n) = slotsFrom k i m ++ slotsFrom k (i + m) n := by
  rw [slotsFrom, ← List.range'_append_1, List.map_append]
  rfl

theorem take_slotsFrom (k : Fin 4) (i m n : Nat) : (slotsFrom k i n).take m = slotsFrom k i (min m n) := by
  apply List.ext_getElem <;> simp [slotsFrom]

theorem behind_slotsFrom (k : Fin 4) (i n : Nat) : behind (slotsFrom k i n) i = i + n := by
  induction n generalizing i with
  | zero => rfl
  | succ n ih => rw [slotsFrom_succ, behind_cons, ih, Nat.add_assoc, Nat.add_comm 1]

section
variable {st : Store} {k : Fin 4}

theorem Store.seek_found {n m i : Nat} (v : List (Fin 4 × Nat)) (hm : m < n)
    (hused : ∀ j, i ≤ j → j < i + m → st.freeAt k j = false) (hfree : st.freeAt k (i + m) = true) :
    st.seek k n i v = (v ++ slotsFrom k i m, some (i + m)) := by
  induction m generalizing n i v with
  | zero =>
    obtain ⟨n, rfl⟩ := Nat.exists_eq_add_of_lt hm
    rw [Store.seek, if_pos (by exact hfree)]
    simp [slotsFrom]
  | succ m ih =>
    obtain ⟨n, rfl⟩ := Nat.exists_eq_add_of_lt (Nat.lt_of_le_of_lt (Nat.zero_le _) hm)
    have hnot : ¬ st.freeAt k i = true := by simp [hused i le_rfl (by omega)]
    have hnext := ih (n := 0 + n) (i := i + 1) (v ++ [(k, i)]) (by omega) (fun j h1 h2 => hused j (by omega) (by omega))
      (by rwa [Nat.add_assoc, Nat.add_comm 1])
    rw [Store.seek, if_neg hnot, hnext, slotsFrom_succ, List.append_assoc, Nat.add_assoc, Nat.add_comm 1]
    rfl

theorem Store.seek_none {n i : Nat} (v : List (Fin 4 × Nat))
    (hused : ∀ j, i ≤ j → j < i + n → st.freeAt k j = false) :
    st.seek k n i v = (v ++ slotsFrom k i n, none) := by
  induction n generalizing i v with
  | zero => simp [Store.seek, slotsFrom]
  | succ n ih =>
    have hnot : ¬ st.freeAt k i = true := by simp [hused i le_rfl (by omega)]
    rw [Store.seek, if_neg hnot, ih _ fun j h1 h2 => hused j (by omega) (by omega), slotsFrom_succ, List.append_assoc]
    rfl

/-- A search finds a slot within its reach, or none is free there. -/
theorem Store.seek_cases (st : Store) (k : Fin 4) (n i : Nat) (v : List (Fin 4 × Nat)) :
    (∃ m, m < n ∧ st.seek k n i v = (v ++ slotsFrom k i m, some (i + m))) ∨
      st.seek k n i v = (v ++ slotsFrom k i n, none) := by
  by_cases h : ∃ m, m < n ∧ st.freeAt k (i + m) = true
  · have hleast := Nat.find_spec h
    refine .inl ⟨Nat.find h, hleast.1, Store.seek_found v hleast.1 (fun j h1 h2 => ?_) hleast.2⟩
    obtain ⟨m, rfl⟩ := Nat.exists_eq_add_of_le h1
    have hm : m < Nat.find h := Nat.lt_of_add_lt_add_left h2
    simpa [hm.trans hleast.1] using Nat.find_min h hm
  · refine .inr (Store.seek_none v fun j h1 h2 => ?_)
    obtain ⟨m, rfl⟩ := Nat.exists_eq_add_of_le h1
    exact Bool.eq_false_iff.mpr fun hfree => h ⟨m, Nat.lt_of_add_lt_add_left h2, hfree⟩

theorem Store.place_active {slot : Nat} (hw : st.writeSlot ≤ slot) (hslot : slot < 256)
    (hfree : st.freeAt st.active slot = true)
    (hused : ∀ i, st.writeSlot ≤ i → i < slot → st.freeAt st.active i = false) :
    st.place = some (slotsFrom st.active st.writeSlot (slot - st.writeSlot), st.active, slot) := by
  obtain ⟨m, rfl⟩ := Nat.exists_eq_add_of_le hw
  have hseek := Store.seek_found (st := st) [] (show m < Config.sectorSlots - st.writeSlot from Nat.lt_sub_of_add_lt
    (by rwa [Nat.add_comm])) hused hfree
  simp only [Store.place, hseek, List.nil_append, Nat.add_sub_cancel_left]

theorem Store.place_spare {slot : Nat} (hspare : st.spare = some k)
    (hactive : ∀ i, st.writeSlot ≤ i → i < 256 → st.freeAt st.active i = false) (hslot : slot < 256)
    (hfree : st.freeAt k slot = true) (hused : ∀ i, i < slot → st.freeAt k i = false) :
    st.place = some (slotsFrom st.active st.writeSlot (256 - st.writeSlot) ++ slotsFrom k 0 slot, k, slot) := by
  have hfull := Store.seek_none (st := st) (k := st.active) (n := 256 - st.writeSlot) (i := st.writeSlot) []
    fun i h1 h2 => hactive i h1 (by omega)
  have hseek := Store.seek_found (st := st) (k := k) (n := 256) (m := slot) (i := 0)
    (slotsFrom st.active st.writeSlot (256 - st.writeSlot)) hslot (fun i _ h => hused i (by omega))
    (by rwa [Nat.zero_add])
  simp only [Store.place, Config.sectorSlots, hfull, List.nil_append, hspare, hseek, Nat.zero_add]

/-- A place found lies in ACTIVE behind the write slot, or in SPARE behind the whole rest of ACTIVE. -/
theorem Store.place_cases {voids : List (Fin 4 × Nat)} {slot : Nat} (h : st.place = some (voids, k, slot)) :
    (∃ m, st.writeSlot + m < 256 ∧ voids = slotsFrom st.active st.writeSlot m ∧ k = st.active) ∨
      (st.spare = some k ∧ voids = slotsFrom st.active st.writeSlot (256 - st.writeSlot) ++ slotsFrom k 0 slot) := by
  unfold Store.place Config.sectorSlots at h
  obtain ⟨m, hm, hseek⟩ | hseek := st.seek_cases st.active (256 - st.writeSlot) st.writeSlot []
  · rw [hseek] at h
    simp only [List.nil_append, Option.some.injEq, Prod.mk.injEq] at h
    obtain ⟨hvoids, hk, -⟩ := h
    exact .inl ⟨m, by omega, hvoids.symm, hk.symm⟩
  · rw [hseek] at h
    cases hspare : st.spare with
    | none => simp [hspare] at h
    | some k' =>
      simp only [hspare, List.nil_append] at h
      obtain ⟨m, -, hseek'⟩ | hseek' :=
        st.seek_cases k' 256 0 (slotsFrom st.active st.writeSlot (256 - st.writeSlot))
      · simp only [hseek', Option.some.injEq, Prod.mk.injEq, Nat.zero_add] at h
        obtain ⟨hvoids, rfl, rfl⟩ := h
        exact .inr ⟨rfl, hvoids.symm⟩
      · simp [hseek'] at h

end

/-! ### The begin of a write (R153, R154) -/

section
variable {s : State} {st : Store} {voids : List (Fin 4 × Nat)} {k : Fin 4} {slot n : Nat}

/-- Short of the last slot of ACTIVE the slots passed are the first ones from the write slot on. -/
theorem Store.passed_within (hplace : st.place = some (voids, k, slot)) (hn : n ≤ voids.length)
    (hw : st.writeSlot < 256) (hlast : (st.active, 255) ∉ voids.take n) :
    voids.take n = slotsFrom st.active st.writeSlot n ∧ st.writeSlot + n < 256 := by
  obtain ⟨m, hm, rfl, -⟩ | ⟨-, rfl⟩ := Store.place_cases hplace
  · rw [slotsFrom_length] at hn
    exact ⟨by rw [take_slotsFrom, Nat.min_eq_left hn], by omega⟩
  · rw [List.take_append, take_slotsFrom, take_slotsFrom, slotsFrom_length, List.mem_append, mem_slotsFrom] at *
    have hshort : n < 256 - st.writeSlot := by
      by_contra hge
      exact hlast (.inl ⟨rfl, by omega, by omega⟩)
    rw [Nat.min_eq_left hshort.le, Nat.sub_eq_zero_of_le hshort.le, Nat.zero_min]
    exact ⟨List.append_nil _, by omega⟩

/-- With the last slot of ACTIVE among them they go on in SPARE. -/
theorem Store.passed_beyond (hplace : st.place = some (voids, k, slot)) (hn : n ≤ voids.length)
    (hw : st.writeSlot < 256) (hlast : (st.active, 255) ∈ voids.take n) :
    st.spare = some k ∧ voids.take n = slotsFrom st.active st.writeSlot (255 - st.writeSlot) ++
      (st.active, 255) :: slotsFrom k 0 (n - (256 - st.writeSlot)) := by
  obtain ⟨m, hm, rfl, -⟩ | ⟨hspare, rfl⟩ := Store.place_cases hplace
  · rw [take_slotsFrom, mem_slotsFrom] at hlast
    obtain ⟨-, -, h⟩ := hlast
    simp only [slotsFrom_length] at *
    omega
  · refine ⟨hspare, ?_⟩
    rw [List.take_append, take_slotsFrom, take_slotsFrom, slotsFrom_length, List.mem_append, mem_slotsFrom,
      mem_slotsFrom] at *
    have hlong : 256 - st.writeSlot ≤ n := by
      obtain ⟨-, h⟩ | ⟨-, h⟩ := hlast
      · simp only at h
        omega
      · omega
    have hfirst : slotsFrom st.active st.writeSlot (256 - st.writeSlot) =
        slotsFrom st.active st.writeSlot (255 - st.writeSlot) ++ [(st.active, 255)] := by
      have hend := slotsFrom_append st.active st.writeSlot (255 - st.writeSlot) 1
      rwa [show st.writeSlot + (255 - st.writeSlot) = 255 by omega,
        show 255 - st.writeSlot + 1 = 256 - st.writeSlot by omega] at hend
    rw [List.length_append, slotsFrom_length, slotsFrom_length] at hn
    rw [Nat.min_eq_right hlong, Nat.min_eq_left (by omega), hfirst, List.append_assoc]
    rfl

/-- A write that begins passes some of its slots at once, and takes a choice at most. -/
theorem State.beginWrite_eq (s : State) (p : Fin 16) (voids : List (Fin 4 × Nat)) (k : Fin 4) (slot : Nat) :
    ∃ w n c, (s.store.beginWrite p s.mu.meters[p].live (voids, k, slot)).op = some (.write w) ∧ w.voids = voids ∧
      n ≤ voids.length ∧ s.beginWrite p (voids, k, slot) =
        { s with store := (s.store.beginWrite p s.mu.meters[p].live (voids, k, slot)).passSlots n w,
                 choices := c } := by
  obtain ⟨w, n, c, hw, hn, heq⟩ | ⟨hnone, -⟩ :=
    (s.mapStore (Store.beginWrite p s.mu.meters[p].live (voids, k, slot))).advanceWrite_spec
  · have hvoids : w.voids = voids := by
      cases hw
      rfl
    exact ⟨w, n, c, hw, hvoids, hvoids ▸ hn, heq⟩
  · exact absurd rfl (hnone _)

theorem exec_storeWriteBegin_idle (h : s.store.writeDue = false) : exec .storeWriteBegin s = .next s := by
  change execStoreWriteBegin s = _
  rw [execStoreWriteBegin, h]
  rfl

theorem Store.worn_iff (st : Store) : st.worn = true ↔ 0xFFFFFFFE < st.nextSeq := decide_eq_true_iff

theorem exec_storeWriteBegin_worn (h : s.store.writeDue = true) (hworn : 0xFFFFFFFE < s.store.nextSeq) :
    exec .storeWriteBegin s = .next s.wearOut := by
  change execStoreWriteBegin s = _
  rw [execStoreWriteBegin, if_pos h, if_pos (s.store.worn_iff.mpr hworn)]

theorem exec_storeWriteBegin_placed {p : Fin 16} {x : List (Fin 4 × Nat) × Fin 4 × Nat} (h : s.store.writeDue = true)
    (hseq : s.store.nextSeq ≤ 0xFFFFFFFE) (hp : s.store.chosen = some p) (hx : s.store.place = some x) :
    exec .storeWriteBegin s = .next (s.beginWrite p x) := by
  change execStoreWriteBegin s = _
  rw [execStoreWriteBegin, if_pos h, if_neg (by rw [Store.worn_iff]; omega), hp, hx]

/-- With no free slot in ACTIVE and SPARE the write faults (log entry 23). -/
theorem exec_storeWriteBegin_full (h : s.store.writeDue = true) (hseq : s.store.nextSeq ≤ 0xFFFFFFFE)
    (hx : s.store.place = none) : exec .storeWriteBegin s = .fault .noFreeSlot := by
  obtain ⟨p, hp⟩ := Store.chosen_of_writeDue h
  change execStoreWriteBegin s = _
  rw [execStoreWriteBegin, if_pos h, if_neg (by rw [Store.worn_iff]; omega), hp, hx]

end

/-! ### The fill step (R155) -/

section
variable (st : Store)

theorem Store.mem_newestIn (k : Fin 4) (p : Fin 16) :
    p ∈ st.newestIn k ↔ (st.newest[p]).map Newest.sector = some k := by
  simp only [Store.newestIn, List.mem_filter, List.mem_finRange, true_and]
  cases st.newest[p] <;> simp

theorem Store.foldl_force_mark (l : List (Fin 16)) (p : Fin 16) :
    (l.foldl Store.force st).marks[p] = if p ∈ l then ⟨true, true⟩ else st.marks[p] := by
  induction l generalizing st with
  | nil => rfl
  | cons q l ih =>
    rw [List.foldl_cons, ih, Store.force]
    by_cases hl : p ∈ l
    · simp only [hl, List.mem_cons_of_mem, if_true]
    · by_cases hq : p = q
      · subst hq
        simp only [hl, if_false, getElem_set_same, List.mem_cons_self, if_true]
      · simp only [hl, if_false, getElem_set_other _ hq, List.mem_cons, hq, or_self]

/-- The sector next after ACTIVE becomes the victim, and exactly the presses whose newest record it holds are forced
(R155). -/
theorem Store.setVictim_mark (p : Fin 16) : st.setVictim.marks[p] =
    if (st.newest[p]).map Newest.sector = some (nextSector st.active) then ⟨true, true⟩ else st.marks[p] := by
  rw [Store.setVictim, Store.foldl_force_mark]
  exact if_congr (Store.mem_newestIn ..) rfl rfl

theorem Store.fillStep_moved : st.fillStep true = st.setVictim := rfl

variable {st}

theorem Store.fillStep_full {k : Fin 4} (hw : st.writeSlot = 256) (hspare : st.spare = some k) :
    st.fillStep false = ({ st with active := k, spare := none, writeSlot := 0 } : Store).setVictim := by
  rw [Store.fillStep, if_neg Bool.false_ne_true, if_pos ⟨hw, by rw [hspare]; rfl⟩, Store.moveToSpare_some st hspare]

theorem Store.fillStep_rest (hw : st.writeSlot < 256) : st.fillStep false = st := by
  rw [Store.fillStep, if_neg Bool.false_ne_true, if_neg]
  rintro ⟨h, -⟩
  exact absurd h (Nat.ne_of_lt hw)

end

/-! ### The completion of a write (R153, R159) -/

/-- SAVE_DONE is owed when a save is owed and nothing is pending, and then it is queued and owed no more. -/
theorem State.saveDone_reports {s : State} (n : Nat) (howed : s.store.saveOwed = true)
    (h : ∀ p : Fin 16, ¬ s.store.marks[p].pending = true) :
    s.saveDone n =
      State.notice .store 1 0 (u16 0 ++ u32 n) { s with store := { s.store with saveOwed := false } } := by
  have hnone : s.store.pendingList = [] := (filter_finRange_eq_nil _).mpr fun p => Bool.eq_false_iff.mpr (h p)
  have hbytes : s.store.pendingBytes = u16 0 := by
    rw [Store.pendingBytes, set16_eq]
    exact congrArg (fun l : List (Fin 16) => u16 (l.map fun p => 2 ^ p.val).sum) hnone
  rw [State.saveDone, howed, hnone, hbytes]
  rfl

theorem State.saveDone_waits {s : State} (n : Nat)
    (h : s.store.saveOwed = false ∨ ∃ p : Fin 16, s.store.marks[p].pending = true) : s.saveDone n = s := by
  refine if_neg fun hdue => ?_
  simp only [Bool.and_eq_true, List.isEmpty_iff] at hdue
  obtain ⟨howed, hnone⟩ := hdue
  obtain hnot | ⟨p, hp⟩ := h
  · exact Bool.false_ne_true (hnot.symm.trans howed)
  · exact Bool.false_ne_true (((filter_finRange_eq_nil _).mp hnone p).symm.trans hp)

/-- SAVE_DONE changes the notices and what is owed alone. -/
theorem State.saveDone_frame (s : State) (n : Nat) : s.saveDone n = { s with
    mlc := (s.saveDone n).mlc, store := { s.store with saveOwed := (s.saveDone n).store.saveOwed } } := by
  unfold State.saveDone
  split <;> rfl

section
variable (w : WriteOp) (st : Store)

/-- What the completion of a write changes before the fill step: the operation, the roles, the write slot, the newest
record, the counts and the flash. -/
theorem Store.finishWrite_frame : st.finishWrite w = { st with
    op := none, active := w.sector
    spare := if w.moves then none else (w.voids.foldl Store.passSlot st).spare, writeSlot := w.slot + 1
    newest := st.newest.set w.press (some { sector := w.sector, slot := w.slot, sequence := w.sequence })
    counts := (st.finishWrite w).counts, flash := (st.finishWrite w).flash } := by
  obtain ⟨h1, h2, h3, h4, h5, h6, h7, h8, h9, h10, h11, h12⟩ := Store.passAll_sameRecords w.voids st
  simp only [Store.finishWrite, Store.programRecord, Store.mapCounts, h1, h2, h3, h4, h5, h6, h7, h8, h9, h10, h11, h12]

theorem Store.finishWrite_flash : (st.finishWrite w).flash =
    flashProgramAll (w.voids.foldl Store.passSlot st).flash (slotAddress w.sector w.slot) w.content := by
  simp only [Store.finishWrite, Store.programRecord]

/-- Two slots of the flash share no byte. -/
theorem inSlot_disjoint {x y : Fin 4 × Nat} (hx : x.2 < 256) (hy : y.2 < 256) (h : x ≠ y) {a : Nat}
    (hxa : inSlot x a) : ¬ inSlot y a := by
  intro hya
  obtain ⟨k, i⟩ := x
  obtain ⟨k', j⟩ := y
  simp only [inSlot, slotAddress, Config.sectorBytes, Config.slotBytes] at hx hy hxa hya
  have hk : k.val = k'.val := by omega
  have hi : i = j := by omega
  exact h (Prod.ext (Fin.ext hk) hi)

theorem WriteOp.content_length : w.content.length = 32 := recordBytes_length _ _ _

variable {w st}

/-- The record is programmed over its slot, the slots still to void read as 0, and no other byte changes. -/
theorem Store.finishWrite_bytes (h : Memory.wf Config.erasedByte st.flash = true) (hslot : w.slot < 256)
    (hfresh : (w.sector, w.slot) ∉ w.voids) (hvoids : ∀ x ∈ w.voids, x.2 < 256) :
    (∀ i, i < 32 → some (Memory.read 0xFF (st.finishWrite w).flash (slotAddress w.sector w.slot + i)) =
      w.content[i]?.map (Memory.read 0xFF st.flash (slotAddress w.sector w.slot + i) &&& ·)) ∧
    (∀ x ∈ w.voids, ∀ a, inSlot x a → Memory.read 0xFF (st.finishWrite w).flash a = 0) ∧
    ∀ a, (∀ x ∈ (w.sector, w.slot) :: w.voids, ¬ inSlot x a) →
      Memory.read 0xFF (st.finishWrite w).flash a = Memory.read 0xFF st.flash a := by
  obtain ⟨hzero, hother⟩ := st.passAll_bytes w.voids h
  have hapart {x : Fin 4 × Nat} (hx : x ∈ w.voids) {a : Nat} (ha : inSlot x a) : ¬ inSlot (w.sector, w.slot) a :=
    inSlot_disjoint (hvoids x hx) hslot (fun he => hfresh (by rwa [← he])) ha
  have hrecord {a : Nat} (ha : ¬ inSlot (w.sector, w.slot) a) : Memory.read 0xFF (st.finishWrite w).flash a =
      Memory.read 0xFF (w.voids.foldl Store.passSlot st).flash a := by
    rw [Store.finishWrite_flash]
    exact flashProgramAll_outside _ (w.sector, w.slot) w.content_length ha
  refine ⟨fun i hi => ?_, fun x hx a ha => ?_, fun a ha => ?_⟩
  · have hlen : i < w.content.length := w.content_length ▸ hi
    have hin : inSlot (w.sector, w.slot) (slotAddress w.sector w.slot + i) :=
      ⟨Nat.le_add_right _ _, Nat.add_lt_add_left hi _⟩
    rw [List.getElem?_eq_getElem hlen, Option.map_some, Store.finishWrite_flash]
    refine congrArg some ((flashProgramAll_at _ _ _ _ hlen (Store.passAll_wf _ _ h)).trans ?_)
    rw [hother _ fun x hx ha => hapart hx ha hin]
    rfl
  · exact (hrecord (hapart hx ha)).trans (hzero x hx a ha)
  · exact (hrecord (ha _ List.mem_cons_self)).trans (hother a fun x hx => ha x (List.mem_cons_of_mem _ hx))

end

section
variable (w : WriteOp) (s : State)

theorem exec_storeWriteComplete (h : s.store.op = some (.write w)) :
    exec .storeWriteComplete s = .next (s.completeWrite w) := by
  change execStoreWriteComplete s = _
  rw [execStoreWriteComplete, h]

theorem exec_storeWriteComplete_idle (h : ∀ w, s.store.op ≠ some (.write w)) :
    exec .storeWriteComplete s = .next s := by
  change execStoreWriteComplete s = _
  unfold execStoreWriteComplete
  split
  · next w hw => exact absurd hw (h w)
  · rfl

/-- The store at the end of a write, before the fill step. -/
def Store.written (st : Store) (w : WriteOp) : Store := (st.finishWrite w).toIdle

theorem State.completeWrite_eq :
    s.completeWrite w = ({ s with store := (s.store.written w).fillStep w.moves } : State).saveDone w.sequence := rfl

/-- The fill step changes the roles, the write slot, the victim and the marks alone. -/
theorem Store.fillStep_frame (moves : Bool) (st : Store) : st.fillStep moves = { st with
    active := (st.fillStep moves).active, spare := (st.fillStep moves).spare
    writeSlot := (st.fillStep moves).writeSlot, victim := (st.fillStep moves).victim
    marks := (st.fillStep moves).marks } := by
  unfold Store.fillStep Store.moveToSpare
  split
  · rw [Store.setVictim_marks]
  · split
    · split <;> rw [Store.setVictim_marks]
    · rfl

end

section
variable {s : State} {p : Fin 16} {voids : List (Fin 4 × Nat)} {k : Fin 4} {slot : Nat}

/-- A write begun has passed the first of its slots: what that leaves of the ring. -/
theorem Store.passed_ring {st t : Store} {n : Nat} (hplace : st.place = some (voids, k, slot)) (hn : n ≤ voids.length)
    (hw : st.writeSlot < 256) (hring : t.active = st.active ∧ t.spare = st.spare ∧ t.writeSlot = st.writeSlot) :
    let u := (voids.take n).foldl Store.passSlot t
    ((st.active, 255) ∉ voids.take n →
      u.active = st.active ∧ u.spare = st.spare ∧ u.writeSlot = st.writeSlot + n) ∧
    ((st.active, 255) ∈ voids.take n →
      u.active = k ∧ u.spare = none ∧ u.writeSlot = n - (256 - st.writeSlot)) := by
  obtain ⟨hactive, hspare, hwrite⟩ := hring
  have hshort {m : Nat} (hm : st.writeSlot + m < 256) : ∀ x ∈ slotsFrom st.active st.writeSlot m, x.2 ≠ 255 :=
    fun x hx => by
      obtain ⟨-, -, hlt⟩ := mem_slotsFrom.mp hx
      omega
  refine ⟨fun hlast => ?_, fun hlast => ?_⟩
  · obtain ⟨htake, hlt⟩ := Store.passed_within hplace hn hw hlast
    obtain ⟨ha, hs, hw'⟩ := Store.passAll_stays (st := t) (.inl (hshort hlt))
    rw [htake]
    exact ⟨ha.trans hactive, hs.trans hspare, by rw [hw', hwrite, behind_slotsFrom]⟩
  · obtain ⟨hk, htake⟩ := Store.passed_beyond hplace hn hw hlast
    obtain ⟨ha, hs, hw'⟩ := Store.passAll_moves (b := slotsFrom k 0 (n - (256 - st.writeSlot))) (hspare.trans hk)
      (show ((st.active, 255) : Fin 4 × Nat).2 = 255 from rfl) (hshort (m := 255 - st.writeSlot) (by omega))
    rw [htake]
    exact ⟨ha, hs, by rw [hw', behind_slotsFrom, Nat.zero_add]⟩

end

/-! ### What a completed write leaves -/

section
variable (w : WriteOp) (s : State)

theorem Store.written_frame (st : Store) : st.written w = { st with
    op := none, active := w.sector
    spare := if w.moves then none else (w.voids.foldl Store.passSlot st).spare, writeSlot := w.slot + 1
    newest := st.newest.set w.press (some { sector := w.sector, slot := w.slot, sequence := w.sequence })
    counts := (st.finishWrite w).counts, flash := (st.finishWrite w).flash
    state := if st.state = .scanning then .scanning else .idle } := by
  rw [Store.written, Store.toIdle, Store.finishWrite_frame]

/-- A completed write changes the notices and the store: there the operation, the newest record, the flash with its
counts and the state as the record says, and the ring, its marks and what is owed as the fill step and SAVE_DONE say.
-/
theorem State.completeWrite_frame : s.completeWrite w = { s with
    mlc := (s.completeWrite w).mlc
    store := { s.store with
      op := none
      newest := s.store.newest.set w.press (some { sector := w.sector, slot := w.slot, sequence := w.sequence })
      counts := (s.store.finishWrite w).counts, flash := (s.store.finishWrite w).flash
      state := if s.store.state = .scanning then .scanning else .idle
      active := ((s.store.written w).fillStep w.moves).active, spare := ((s.store.written w).fillStep w.moves).spare
      writeSlot := ((s.store.written w).fillStep w.moves).writeSlot
      victim := ((s.store.written w).fillStep w.moves).victim, marks := ((s.store.written w).fillStep w.moves).marks
      saveOwed := (s.completeWrite w).store.saveOwed } } := by
  have hfill := Store.fillStep_frame w.moves (s.store.written w)
  rw [State.completeWrite_eq]
  generalize (s.store.written w).fillStep w.moves = t at hfill
  rw [Store.written_frame] at hfill
  conv_lhs => rw [State.saveDone_frame]
  generalize State.saveDone w.sequence { s with store := t } = u
  conv_lhs => rw [hfill]

end

section
variable {w : WriteOp} {s : State}

/-- The sector `k` stands next in the ring to be erased, and exactly the presses whose newest record it holds are
forced. -/
def Store.compactsInto (st t : Store) (k : Fin 4) : Prop :=
  t.victim = some k ∧ ∀ p : Fin 16,
    t.marks[p] = if (t.newest[p]).map Newest.sector = some k then ⟨true, true⟩ else st.marks[p]

/-- The sector next after ACTIVE is the one to compact after the victim step. -/
theorem Store.setVictim_compacts (st : Store) : st.compactsInto st.setVictim (st.active + 1) := by
  refine ⟨by rw [Store.setVictim_marks]; rfl, fun p => ?_⟩
  rw [Store.setVictim_mark]
  refine if_congr ?_ rfl rfl
  rw [Store.setVictim_marks]
  rfl

/-- After a write that went to SPARE, that sector is ACTIVE with no SPARE, and the sector next after it is compacted
(R155). -/
theorem Store.fillStep_written_moves (st : Store) (hmoves : w.moves = true) :
    let t := (st.written w).fillStep w.moves
    t.active = w.sector ∧ t.spare = none ∧ t.writeSlot = w.slot + 1 ∧ st.compactsInto t (w.sector + 1) := by
  obtain ⟨hvictim, hmarks⟩ := (st.written w).setVictim_compacts
  rw [hmoves, Store.fillStep_moved]
  rw [Store.written_frame, hmoves] at *
  refine ⟨?_, ?_, ?_, hvictim, hmarks⟩
  all_goals rw [Store.setVictim_marks]
  rfl

section
variable {st : Store} (hmoves : w.moves = false) (hlast : ∀ x ∈ w.voids, x.2 ≠ 255)
include hmoves hlast

/-- A write in ACTIVE leaves SPARE as it was. -/
theorem Store.written_spare : (st.written w).spare = st.spare := by
  rw [Store.written_frame, hmoves]
  exact (Store.passAll_stays (.inl hlast)).2.1

omit hlast in
/-- A write in ACTIVE that leaves a slot behind its record ends there. -/
theorem Store.fillStep_written_within (hslot : w.slot + 1 < 256) :
    (st.written w).fillStep w.moves = st.written w := by
  rw [hmoves]
  exact Store.fillStep_rest (by rwa [Store.written_frame])

/-- A write that fills ACTIVE to its end brings SPARE into use, and the sector next after it is compacted (R155). -/
theorem Store.fillStep_written_fills (hslot : w.slot + 1 = 256) {k : Fin 4} (hspare : st.spare = some k) :
    let t := (st.written w).fillStep w.moves
    t.active = k ∧ t.spare = none ∧ t.writeSlot = 0 ∧ st.compactsInto t (k + 1) := by
  have hfull : (st.written w).fillStep w.moves =
      ({ st.written w with active := k, spare := none, writeSlot := 0 } : Store).setVictim := by
    rw [hmoves]
    exact Store.fillStep_full (by rwa [Store.written_frame])
      ((Store.written_spare hmoves hlast).trans hspare)
  obtain ⟨hvictim, hmarks⟩ :=
    Store.setVictim_compacts { st.written w with active := k, spare := none, writeSlot := 0 }
  rw [hfull]
  refine ⟨by rw [Store.setVictim_marks], by rw [Store.setVictim_marks], by rw [Store.setVictim_marks], hvictim, ?_⟩
  rw [Store.written_frame] at *
  exact hmarks

end

/-- SAVE_DONE after a write in ACTIVE that neither fills it nor moves (R159). -/
theorem State.completeWrite_saveDone (hstay : (s.store.written w).fillStep w.moves = s.store.written w) :
    (s.store.saveOwed = true ∧ (∀ p : Fin 16, ¬ s.store.marks[p].pending = true) →
      (s.completeWrite w).store.saveOwed = false ∧
        (s.completeWrite w).mlc = (State.notice .store 1 0 (u16 0 ++ u32 w.sequence) s).mlc) ∧
    (s.store.saveOwed = false ∨ (∃ p : Fin 16, s.store.marks[p].pending = true) →
      (s.completeWrite w).store.saveOwed = s.store.saveOwed ∧ (s.completeWrite w).mlc = s.mlc) := by
  have hmarks : (s.store.written w).marks = s.store.marks := by rw [Store.written_frame]
  have howed : (s.store.written w).saveOwed = s.store.saveOwed := by rw [Store.written_frame]
  rw [State.completeWrite_eq, hstay]
  rw [← hmarks, ← howed]
  refine ⟨fun ⟨h, hnone⟩ => ?_, fun h => ?_⟩
  · rw [State.saveDone_reports (s := { s with store := s.store.written w }) w.sequence h hnone]
    exact ⟨rfl, rfl⟩
  · rw [State.saveDone_waits (s := { s with store := s.store.written w }) w.sequence h]
    exact ⟨rfl, rfl⟩

variable (w s)

theorem State.completeWrite_store :
    let u := s.completeWrite w
    u.store.op = none ∧
      u.store.newest = s.store.newest.set w.press (some ⟨w.sector, w.slot, w.sequence⟩) ∧
      u.store.nextSeq = s.store.nextSeq ∧ u.mu = s.mu ∧ u.presses = s.presses ∧ u.jobs = s.jobs ∧ u.smm = s.smm ∧
      u.store.state = (if s.store.state = .scanning then .scanning else .idle) := by
  rw [State.completeWrite_frame]
  exact ⟨rfl, rfl, rfl, rfl, rfl, rfl, rfl, rfl⟩

theorem State.completeWrite_flash : (s.completeWrite w).store.flash = (s.store.finishWrite w).flash := by
  rw [State.completeWrite_frame]

theorem State.completeWrite_ring :
    let u := (s.completeWrite w).store
    let t := (s.store.written w).fillStep w.moves
    u.active = t.active ∧ u.spare = t.spare ∧ u.writeSlot = t.writeSlot ∧ u.victim = t.victim ∧ u.marks = t.marks ∧
      u.newest = t.newest := by
  have hnewest : ((s.store.written w).fillStep w.moves).newest = (s.store.written w).newest := by
    rw [Store.fillStep_frame]
  rw [State.completeWrite_frame]
  exact ⟨rfl, rfl, rfl, rfl, rfl, by rw [hnewest, Store.written_frame]⟩

end

/-- Settles O59: a begun write is the choice of a press and of a place, and it voids some of the slots on its way; what
is left of them is voided at the completion, which programs the record over its own slot and nothing else. The ring
after it is the one of the fill step, whose three cases are the three a record can meet. -/
theorem storeWritesRecords : Obligations.StoreWritesRecords := by
  intro s st pending forced old within slots compacts
  refine ⟨exec_storeWriteBegin_idle, st.chosen_iff, fun slot => Store.place_active, fun k slot => ?_, ?_, ?_,
    exec_storeWriteBegin_full, ?_, exec_storeWriteComplete_idle s⟩
  · exact fun hspare hactive hslot hfree hused => Store.place_spare hspare hactive hslot hfree hused
  · intro p voids sector slot hdue hseq hp hplace begun
    have hexec := exec_storeWriteBegin_placed hdue hseq hp hplace
    refine ⟨?_, ?_⟩
    · rintro rfl
      rw [hexec]
      rfl
    · obtain ⟨w, n, c, hop, hvoids, hn, heq⟩ := s.beginWrite_eq p voids sector slot
      cases hop
      refine ⟨_, n, hexec, hn, ?_⟩
      rw [heq]
      have hring (hw : st.writeSlot < 256) := Store.passed_ring
        (t := st.beginWrite p s.mu.meters[p].live (voids, sector, slot)) hplace hn hw ⟨rfl, rfl, rfl⟩
      refine ⟨rfl, Store.passSlots_frame _ n _, fun hs => ?_, fun hw => (hring hw).1,
        fun hw hlast _ => (hring hw).2 hlast⟩
      exact Store.passAll_bytes (st.beginWrite p s.mu.meters[p].live (voids, sector, slot)) _ hs.2
  · intro hdue hseq hidle
    have hscan : s.scanning = false := decide_eq_false fun h => by cases hidle.symm.trans h
    rw [exec_storeWriteBegin_worn hdue hseq, State.wearOut, hscan]
    rfl
  · intro w hop hs hslot hfresh hvoids
    obtain ⟨hactive, hspare, hwrite, hvictim, hmarks, hnewest⟩ := s.completeWrite_ring w
    have hcompacts {k : Fin 4} (h : st.compactsInto ((st.written w).fillStep w.moves) k) :
        compacts k (s.completeWrite w) := by
      obtain ⟨hv, hm⟩ := h
      exact ⟨hvictim.trans hv, fun p => by rw [hmarks, hm p, hnewest]⟩
    obtain ⟨ho, hn, hq, hmu, hp, hj, hl, hst⟩ := s.completeWrite_store w
    refine ⟨_, exec_storeWriteComplete w s hop, ho, hn, hq, hmu, hp, hj, hl, hst, ?_, ?_, ?_⟩
    · rw [State.completeWrite_flash]
      exact Store.finishWrite_bytes hs.2 hslot hfresh hvoids
    · intro hmoves hsector hlast
      refine ⟨fun hwithin => ?_, fun k hfull hk => ?_⟩
      · have hstay := Store.fillStep_written_within (st := st) hmoves hwithin
        rw [hstay, Store.written_frame] at hactive hwrite hvictim hmarks
        rw [hstay, Store.written_spare hmoves hlast] at hspare
        obtain ⟨hreports, hwaits⟩ := State.completeWrite_saveDone hstay
        exact ⟨hactive.trans hsector, hspare, hwrite, hvictim, hmarks, hreports, hwaits⟩
      · obtain ⟨ha, hs, hw, hc⟩ := Store.fillStep_written_fills (st := st) hmoves hlast hfull hk
        exact ⟨hactive.trans ha, hspare.trans hs, hwrite.trans hw, hcompacts hc⟩
    · intro hmoves
      obtain ⟨ha, hs, hw, hc⟩ := st.fillStep_written_moves hmoves
      exact ⟨hactive.trans ha, hspare.trans hs, hwrite.trans hw, hcompacts hc⟩

end Sys2Proof.Machine
end

section
/-! What the meter store's erases and its start-up scan read (R157, R162, R163): the bytes an erase leaves, the counts
of a sector, the record of highest sequence, the slot after the last one in use, and the ring they give. -/

namespace Sys2Proof.Machine

/-! ### The bytes that an erase leaves (R157) -/

/-- A byte other than the erased one is read back whatever the order of the memory's entries. -/
theorem Memory.read_write_of_ne {d b : Byte} (m : Memory) (a : Nat) (h : b ≠ d) :
    Memory.read d (Memory.write d m a b) a = b := by
  induction m with
  | nil => rw [Memory.write, if_neg h, Memory.read, if_pos rfl]
  | cons c m ih =>
    obtain ⟨x, y⟩ := c
    simp only [Memory.write, if_neg h]
    split
    · rw [Memory.read, if_pos rfl]
    · split
      · rw [Memory.read, if_pos rfl]
      · next hx => rw [Memory.read, if_neg hx, ih]

/-- The bytes that an erase leaves, written at their offsets into a sector already clear. -/
def leaveResidue (k : Fin 4) (m : Memory) (left : List (Nat × Byte)) : Memory :=
  left.foldl (fun m c => if c.1 < Config.sectorBytes
    then Memory.write Config.erasedByte m (k.val * Config.sectorBytes + c.1) c.2 else m) m

theorem flashErase_eq (m : Memory) (k : Fin 4) (left : List (Nat × Byte)) : flashErase m k left =
    leaveResidue k (Memory.clear (k.val * Config.sectorBytes) Config.sectorBytes m) left := rfl

section
variable (k : Fin 4) (m : Memory) {left : List (Nat × Byte)}

theorem leaveResidue_cons {c : Nat × Byte} (h : c.1 < 8192) : leaveResidue k m (c :: left) =
    leaveResidue k (Memory.write Config.erasedByte m (k.val * 8192 + c.1) c.2) left :=
  congrArg (fun m => leaveResidue k m left) (if_pos h)

theorem leaveResidue_other (hleft : ∀ c ∈ left, c.1 < 8192) {a : Nat} (ha : ∀ c ∈ left, a ≠ k.val * 8192 + c.1) :
    Memory.read Config.erasedByte (leaveResidue k m left) a = Memory.read Config.erasedByte m a := by
  induction left generalizing m with
  | nil => rfl
  | cons c left ih =>
    rw [List.forall_mem_cons] at hleft ha
    rw [leaveResidue_cons k m hleft.1, ih _ hleft.2 ha.2, Memory.read_write_other _ _ _ _ _ ha.1]

/-- At an offset left unerased stands a byte left there. -/
theorem leaveResidue_at (hleft : ∀ c ∈ left, c.1 < 8192 ∧ c.2 ≠ 0xFF) {c : Nat × Byte} (hc : c ∈ left) :
    ∃ c' ∈ left, c'.1 = c.1 ∧ Memory.read Config.erasedByte (leaveResidue k m left) (k.val * 8192 + c.1) = c'.2 := by
  induction left generalizing m c with
  | nil => cases hc
  | cons d left ih =>
    rw [List.forall_mem_cons] at hleft
    obtain ⟨⟨hd, hdne⟩, hleft⟩ := hleft
    rw [leaveResidue_cons k m hd]
    by_cases hlater : ∃ c' ∈ left, c'.1 = c.1
    · obtain ⟨c', hc', he⟩ := hlater
      obtain ⟨e, hmem, hfst, hread⟩ := ih (Memory.write Config.erasedByte m (k.val * 8192 + d.1) d.2) hleft hc'
      exact ⟨e, List.mem_cons_of_mem _ hmem, hfst.trans he, he ▸ hread⟩
    · have hcd : c = d := (List.mem_cons.mp hc).resolve_right fun h => hlater ⟨c, h, rfl⟩
      subst hcd
      refine ⟨c, List.mem_cons_self, rfl, ?_⟩
      rw [leaveResidue_other k _ (fun e he => (hleft e he).1)
        (fun e he heq => hlater ⟨e, he, (Nat.add_left_cancel heq).symm⟩)]
      exact Memory.read_write_of_ne m _ hdne

/-- Each byte left stands at its offset when no offset comes twice. -/
theorem flashErase_at (hleft : ∀ c ∈ left, c.1 < 8192 ∧ c.2 ≠ 0xFF) (honce : (left.map Prod.fst).Nodup)
    {c : Nat × Byte} (hc : c ∈ left) :
    Memory.read Config.erasedByte (flashErase m k left) (k.val * 8192 + c.1) = c.2 := by
  obtain ⟨c', hc', hfst, hread⟩ := leaveResidue_at k (Memory.clear (k.val * 8192) 8192 m) hleft hc
  rw [flashErase_eq]
  exact hread.trans (congrArg Prod.snd (List.inj_on_of_nodup_map honce hc' hc hfst))

/-- Every byte of the sector that is not left is erased. -/
theorem flashErase_within (hleft : ∀ c ∈ left, c.1 < 8192) {a : Nat} (hlo : k.val * 8192 ≤ a)
    (hhi : a < (k.val + 1) * 8192) (ha : ∀ c ∈ left, a ≠ k.val * 8192 + c.1) :
    Memory.read Config.erasedByte (flashErase m k left) a = 0xFF :=
  (leaveResidue_other k _ hleft ha).trans (flashErase_clean m k a hlo hhi)

end

/-! ### Counts of a sector (R160) -/

section
variable (st : Store) (k : Fin 4)

theorem Store.freeAt_iff (i : Nat) : st.freeAt k i = true ↔ st.kindAt k i = .free := decide_eq_true_iff

theorem Store.countSector_record :
    (st.countSector k).record = (List.range 256).countP fun i => (st.recordAt k i).isSome := by
  suffices h : ∀ (l : List Nat) (c : SlotCounts), (l.foldl (fun c i => c.more (st.kindAt k i)) c).record =
      c.record + l.countP fun i => (st.recordAt k i).isSome from (h _ _).trans (Nat.zero_add _)
  intro l
  induction l with
  | nil => exact fun c => rfl
  | cons i l ih =>
    intro c
    rw [List.foldl_cons, ih, List.countP_cons, Store.recordAt]
    cases st.kindAt k i <;> simp [SlotCounts.more, Nat.add_assoc, Nat.add_comm 1]

/-- A sector counts no record exactly when none of its slots holds one. -/
theorem Store.countSector_recordless :
    (st.countSector k).record = 0 ↔ ∀ i r, ¬ (i < 256 ∧ st.kindAt k i = .record r) := by
  have hslot (i : Nat) : (st.recordAt k i).isSome = true ↔ ∃ r, st.kindAt k i = .record r := by
    unfold Store.recordAt
    cases st.kindAt k i <;> simp
  simp only [Store.countSector_record, List.countP_eq_zero, List.mem_range, hslot, not_exists, not_and]
  exact ⟨fun h i r hi => h i hi r, fun h i hi r => h i r hi⟩

/-- A sector all of whose slots are free counts nothing else. -/
theorem Store.countSector_allFree (h : ∀ i, i < 256 → st.freeAt k i = true) : st.countSector k = ⟨256, 0, 0, 0⟩ := by
  suffices hfold : ∀ (l : List Nat) (c : SlotCounts), (∀ i ∈ l, st.freeAt k i = true) →
      l.foldl (fun c i => c.more (st.kindAt k i)) c = { c with free := c.free + l.length } by
    have hrange := hfold (List.range 256) ⟨0, 0, 0, 0⟩ fun i hi => h i (List.mem_range.mp hi)
    rwa [List.length_range] at hrange
  intro l
  induction l with
  | nil => exact fun c _ => rfl
  | cons i l ih =>
    intro c hl
    rw [List.forall_mem_cons, Store.freeAt_iff] at hl
    rw [List.foldl_cons, ih _ hl.2, hl.1, SlotCounts.more, List.length_cons, Nat.add_assoc, Nat.add_comm 1]

theorem Store.countSector_erased : (st.countSector k).free = 256 ↔ ∀ i, i < 256 → st.freeAt k i = true := by
  have hall := List.countP_eq_length (p := st.freeAt k) (l := List.range 256)
  rw [List.length_range] at hall
  rw [Store.countSector_free, hall]
  exact forall_congr' fun i => by rw [List.mem_range]

theorem Store.erasedAt_iff : st.erasedAt k = true ↔ st.counts[k].free = 256 := decide_eq_true_iff

end

/-! ### The record of highest sequence (R162) -/

section
variable {l : List (Newest × MeterRecord)}

theorem highest_eq_none : highest l = none ↔ l = [] := by
  cases l with
  | nil => exact ⟨fun _ => rfl, fun _ => rfl⟩
  | cons x l =>
    refine ⟨fun h => ?_, fun h => nomatch h⟩
    unfold highest at h
    split at h
    · split at h <;> cases h
    · cases h

theorem highest_le {x y : Newest × MeterRecord} (h : highest l = some x) (hy : y ∈ l) :
    y.2.sequence ≤ x.2.sequence := by
  induction l generalizing x with
  | nil => cases hy
  | cons z l ih =>
    unfold highest at h
    obtain rfl | hy := List.mem_cons.mp hy
    · split at h
      · split at h
        · next hlt => exact Option.some.inj h ▸ Nat.le_of_lt hlt
        · exact Option.some.inj h ▸ Nat.le_refl _
      · exact Option.some.inj h ▸ Nat.le_refl _
    · split at h
      · next w hw =>
        have hyw := ih hw hy
        split at h
        · exact Option.some.inj h ▸ hyw
        · next hge => exact Option.some.inj h ▸ hyw.trans (Nat.le_of_not_lt hge)
      · next hnone =>
        rw [highest_eq_none.mp hnone] at hy
        cases hy

/-- The element of strictly highest sequence is the one chosen. -/
theorem highest_of_lt {x : Newest × MeterRecord} (hx : x ∈ l)
    (h : ∀ y ∈ l, y ≠ x → y.2.sequence < x.2.sequence) : highest l = some x := by
  cases htop : highest l with
  | none =>
    rw [highest_eq_none.mp htop] at hx
    cases hx
  | some y =>
    by_contra hne
    have hlt := h y (highest_mem htop) fun he => hne (congrArg some he)
    exact absurd (highest_le htop hx) (Nat.not_le.mpr hlt)

end

section
variable (st : Store)

/-- The slot `x` of the flash holds the valid record `r`. -/
def Store.holds (x : Fin 4 × Nat) (r : MeterRecord) : Prop := x.2 < 256 ∧ st.kindAt x.1 x.2 = .record r

/-- A slot's record as the scan keeps it. -/
def recordOf (x : Fin 4 × Nat) (r : MeterRecord) : Newest × MeterRecord := (⟨x.1, x.2, r.sequence⟩, r)

variable {st}

theorem Store.mem_records_iff {z : Newest × MeterRecord} : z ∈ st.records ↔ ∃ x r, st.holds x r ∧ z = recordOf x r := by
  rw [Store.mem_records]
  constructor
  · rintro ⟨k, i, r, hi, hkind, rfl⟩
    exact ⟨(k, i), r, ⟨hi, hkind⟩, rfl⟩
  · rintro ⟨⟨k, i⟩, r, ⟨hi, hkind⟩, rfl⟩
    exact ⟨k, i, r, hi, hkind, rfl⟩

theorem Store.holds_unique {x : Fin 4 × Nat} {r r' : MeterRecord} (h : st.holds x r) (h' : st.holds x r') : r = r' :=
  SlotKind.record.inj (h.2.symm.trans h'.2)

/-- Among the records that meet a condition the one of strictly highest sequence is the highest of their list. -/
theorem Store.highest_records {x : Fin 4 × Nat} {r : MeterRecord} (f : Newest × MeterRecord → Bool) (hx : st.holds x r)
    (hf : f (recordOf x r) = true)
    (h : ∀ y r', st.holds y r' → f (recordOf y r') = true → y ≠ x → r'.sequence < r.sequence) :
    highest (st.records.filter f) = some (recordOf x r) := by
  refine highest_of_lt (List.mem_filter.mpr ⟨Store.mem_records_iff.mpr ⟨x, r, hx, rfl⟩, hf⟩) fun z hz hne => ?_
  obtain ⟨hz, hfz⟩ := List.mem_filter.mp hz
  obtain ⟨y, r', hy, rfl⟩ := Store.mem_records_iff.mp hz
  refine h y r' hy hfz fun he => hne ?_
  subst he
  rw [Store.holds_unique hx hy]

theorem Store.newestOf_some {x : Fin 4 × Nat} {r : MeterRecord} (hx : st.holds x r)
    (h : ∀ y r', st.holds y r' → r'.press = r.press → y ≠ x → r'.sequence < r.sequence) :
    newestOf st.records r.press = some (recordOf x r) :=
  Store.highest_records _ hx (decide_eq_true rfl) fun y r' hy hp => h y r' hy (of_decide_eq_true hp)

theorem Store.newestOf_none {p : Fin 16} (h : ∀ x r, st.holds x r → r.press ≠ p) : newestOf st.records p = none := by
  refine highest_eq_none.mpr (List.filter_eq_nil_iff.mpr fun z hz => ?_)
  obtain ⟨x, r, hx, rfl⟩ := Store.mem_records_iff.mp hz
  exact fun hp => h x r hx (of_decide_eq_true hp)

end

/-! ### The slot after the last one in use (R163) -/

theorem afterLast_eq {f : Nat → Bool} {n w : Nat} (hw : w ≤ n) (hfree : ∀ i, w ≤ i → i < n → f i = true)
    (hlast : ∀ i, w = i + 1 → f i = false) : (List.range n).foldl (fun n i => if f i then n else i + 1) 0 = w := by
  induction n with
  | zero => exact (Nat.le_zero.mp hw).symm
  | succ n ih =>
    rw [List.range_succ, List.foldl_append, List.foldl_cons, List.foldl_nil]
    obtain rfl | hlt := Nat.eq_or_lt_of_le hw
    · rw [hlast n rfl, if_neg Bool.false_ne_true]
    · have hwn := Nat.le_of_lt_succ hlt
      rw [hfree n hwn n.lt_succ_self, if_pos rfl]
      exact ih hwn fun i hi hin => hfree i hi (Nat.lt_succ_of_lt hin)

theorem Store.slotAfterLast_eq {st : Store} {k : Fin 4} {w : Nat} (hw : w ≤ 256)
    (hfree : ∀ i, w ≤ i → i < 256 → st.freeAt k i = true) (hlast : ∀ i, w = i + 1 → st.freeAt k i = false) :
    st.slotAfterLast k = w :=
  afterLast_eq (f := st.freeAt k) hw hfree hlast

/-! ### The ring that the scan finds (R163) -/

section
variable {st : Store}

theorem Store.ring_top {x : Fin 4 × Nat} {r : MeterRecord} (hx : st.holds x r)
    (h : ∀ y r', st.holds y r' → y ≠ x → r'.sequence < r.sequence) :
    st.ring.active = x.1 ∧ st.ring.nextSeq = r.sequence + 1 := by
  have htop : highest st.records = some (recordOf x r) := by
    rw [← List.filter_true st.records]
    exact Store.highest_records _ hx rfl fun y r' hy _ => h y r' hy
  simp only [Store.ring, htop]
  exact ⟨rfl, rfl⟩

theorem Store.ring_empty (h : ∀ x r, ¬ st.holds x r) : st.ring.active = 0 ∧ st.ring.nextSeq = 1 := by
  have htop : highest st.records = none := by
    refine highest_eq_none.mpr (List.eq_nil_iff_forall_not_mem.mpr fun z hz => ?_)
    obtain ⟨x, r, hx, -⟩ := Store.mem_records_iff.mp hz
    exact h x r hx
  simp only [Store.ring, htop, and_self]

theorem Store.ring_writeSlot : st.ring.writeSlot = st.slotAfterLast st.ring.active := by rw [Store.ring]

theorem Store.ring_spare : st.ring.spare =
    if st.erasedAt (nextSector st.ring.active) then some (nextSector st.ring.active) else none := by rw [Store.ring]

/-- Where the scan goes on once its ring is found. -/
def Store.settled (st : Store) : Store :=
  { st with attempts := 0, scan := some (if st.victim.isSome then .compacting else .ending) }

theorem Store.settled_of_none (h : st.victim = none) :
    st.settled = { st with attempts := 0, scan := some .ending } := by
  rw [Store.settled, if_neg (by rw [h]; exact Bool.false_ne_true)]

theorem Store.settled_of_some {k : Fin 4} (h : st.victim = some k) :
    st.settled = { st with attempts := 0, scan := some .compacting } := by
  rw [Store.settled, if_pos (by rw [h]; rfl)]

theorem Store.restore_eq : st.restore = st.ring.scanFill.victimStep.settled := rfl

theorem Store.setVictim_victim : st.setVictim.victim = some (nextSector st.active) := by rw [Store.setVictim_marks]

theorem Store.victimStep_of_erased (h : st.erasedAt (nextSector st.active) = true) : st.victimStep = st := by
  rw [Store.victimStep, h, Bool.not_true, Bool.and_false, if_neg Bool.false_ne_true]

theorem Store.victimStep_of_victim {k : Fin 4} (h : st.victim = some k) : st.victimStep = st := by
  rw [Store.victimStep, h, Option.isNone_some, Bool.false_and, if_neg Bool.false_ne_true]

theorem Store.victimStep_of_unerased (hvictim : st.victim = none) (h : st.erasedAt (nextSector st.active) = false) :
    st.victimStep = { st.setVictim with spare := none } := by
  rw [Store.victimStep, hvictim, h]
  rfl

/-- ACTIVE has room and the sector next to it is erased: that is SPARE, and the scan is at its end. -/
theorem Store.restore_spare (hvictim : st.victim = none) (hw : st.ring.writeSlot < 256)
    (he : st.erasedAt (nextSector st.ring.active) = true) :
    st.restore = { st.ring with attempts := 0, scan := some .ending } := by
  have hfill : st.ring.scanFill = st.ring := if_neg fun h => Nat.ne_of_lt hw h.1
  have hring : st.ring.victim = none := hvictim
  rw [Store.restore_eq, hfill, Store.victimStep_of_erased he, Store.settled_of_none hring]

/-- The store as the scan leaves it with the sector next after ACTIVE to compact. -/
def Store.compacting (st : Store) : Store :=
  { st.setVictim with spare := none, attempts := 0, scan := some .compacting }

theorem Store.compacting_frame : st.compacting = { st with
    spare := none, victim := some (nextSector st.active), attempts := 0, scan := some .compacting
    marks := st.setVictim.marks } := by
  rw [Store.compacting, Store.setVictim_marks]

/-- A full ACTIVE hands over to SPARE, and the sector that then stands next is the victim. -/
theorem Store.restore_handover (hw : st.ring.writeSlot = 256)
    (he : st.erasedAt (nextSector st.ring.active) = true) : st.restore =
      ({ st.ring with active := nextSector st.ring.active, spare := none, writeSlot := 0 } : Store).compacting := by
  have hspare : st.ring.spare = some (nextSector st.ring.active) := if_pos he
  have hfill : st.ring.scanFill =
      ({ st.ring with active := nextSector st.ring.active, spare := none, writeSlot := 0 } : Store).setVictim := by
    rw [Store.scanFill, if_pos ⟨hw, by rw [hspare]; rfl⟩, Store.moveToSpare_some _ hspare]
  rw [Store.restore_eq, hfill, Store.victimStep_of_victim Store.setVictim_victim,
    Store.settled_of_some Store.setVictim_victim, Store.compacting_frame, Store.setVictim_marks]

/-- A sector next to ACTIVE that is not erased is the victim. -/
theorem Store.restore_unerased (hvictim : st.victim = none) (he : st.erasedAt (nextSector st.ring.active) = false) :
    st.restore = st.ring.compacting := by
  have hspare : st.ring.spare = none := by rw [Store.ring_spare, he, if_neg Bool.false_ne_true]
  have hfill : st.ring.scanFill = st.ring := if_neg fun h => by simp [hspare] at h
  rw [Store.restore_eq, hfill, Store.victimStep_of_unerased (st := st.ring) hvictim he]
  exact Store.settled_of_some (st := { st.ring.setVictim with spare := none }) Store.setVictim_victim

end

/-- The store `u` stands in its scan with the sector `k` to compact, the marks of `st` forced accordingly. -/
def Store.scanCompacts (st u : Store) (k : Fin 4) : Prop :=
  u.spare = none ∧ u.victim = some k ∧ u.scan = some .compacting ∧
    ∀ p : Fin 16, u.marks[p] = if (u.newest[p]).map Newest.sector = some k then ⟨true, true⟩ else st.marks[p]

/-- The ring found from the store `st`, with the record of highest sequence in the sector `a` (R163). -/
def Store.ringAt (st u : Store) (a : Fin 4) (next : Nat) : Prop :=
  u.nextSeq = next ∧ u.op = none ∧ u.attempts = 0 ∧
  ∀ w, w ≤ 256 → (∀ i, w ≤ i → i < 256 → u.freeAt a i = true) → (∀ i, w = i + 1 → u.freeAt a i = false) →
    (w < 256 → u.counts[a + 1].free = 256 → u.active = a ∧ u.writeSlot = w ∧ u.spare = some (a + 1) ∧
      u.victim = none ∧ u.marks = st.marks ∧ u.scan = some .ending) ∧
    (w = 256 → u.counts[a + 1].free = 256 → u.active = a + 1 ∧ u.writeSlot = 0 ∧ st.scanCompacts u (a + 2)) ∧
    (¬ u.counts[a + 1].free = 256 → u.active = a ∧ u.writeSlot = w ∧ st.scanCompacts u (a + 1))

section
variable {st : Store}

theorem Store.freeAt_of_flash {u : Store} (h : u.flash = st.flash) : u.freeAt = st.freeAt := by
  funext k i
  rw [Store.freeAt, Store.freeAt, Store.kindAt, Store.kindAt, h]

theorem Store.holds_of_flash {u : Store} (h : u.flash = st.flash) : u.holds = st.holds := by
  funext x r
  rw [Store.holds, Store.holds, Store.kindAt, Store.kindAt, h]

theorem Store.scanCompacts_compacting {t : Store} (h : t.marks = st.marks) :
    st.scanCompacts t.compacting (t.active + 1) := by
  obtain ⟨hvictim, hmarks⟩ := t.setVictim_compacts
  exact ⟨rfl, hvictim, rfl, fun p => (hmarks p).trans (by rw [h]; rfl)⟩

/-- What the fill step and the victim step of the scan do not touch. -/
def Store.plain (st : Store) : StoreState × Nat × Nat × Option StoreOp := (st.state, st.erased, st.nextSeq, st.op)

theorem Store.setVictim_plain (t : Store) : t.setVictim.plain = t.plain := by
  rw [Store.setVictim_marks]
  rfl

theorem Store.moveToSpare_plain (t : Store) : t.moveToSpare.plain = t.plain := by
  unfold Store.moveToSpare
  split <;> rfl

theorem Store.scanFill_plain (t : Store) : t.scanFill.plain = t.plain := by
  unfold Store.scanFill
  split
  · exact t.moveToSpare.setVictim_plain.trans t.moveToSpare_plain
  · rfl

theorem Store.victimStep_plain (t : Store) : t.victimStep.plain = t.plain := by
  unfold Store.victimStep
  split
  · exact t.setVictim_plain
  · rfl

theorem Store.restore_plain : st.restore.plain = (st.state, st.erased, st.ring.nextSeq, none) := by
  have hring : st.ring.plain = (st.state, st.erased, st.ring.nextSeq, none) := by
    rw [Store.plain, Store.ring]
  calc st.restore.plain = st.ring.scanFill.victimStep.plain := by rw [Store.restore_eq]; rfl
    _ = st.ring.plain := (Store.victimStep_plain _).trans (Store.scanFill_plain _)
    _ = _ := hring

/-- The repair keeps the state and the count of erases, and leaves no operation and no attempt. -/
theorem Store.restore_fields : st.restore.state = st.state ∧ st.restore.erased = st.erased ∧
    st.restore.nextSeq = st.ring.nextSeq ∧ st.restore.op = none ∧ st.restore.attempts = 0 ∧
    st.restore.scan = some (if st.restore.victim.isSome then .compacting else .ending) := by
  have hplain := st.restore_plain
  simp only [Store.plain, Prod.mk.injEq] at hplain
  obtain ⟨hstate, herased, hnext, hop⟩ := hplain
  exact ⟨hstate, herased, hnext, hop, by rw [Store.restore_eq, Store.settled], by rw [Store.restore_eq, Store.settled]⟩

/-- The repair of the ring leaves the three cases of it that R163 names. -/
theorem Store.restore_ringAt (hvictim : st.victim = none) : st.ringAt st.restore st.ring.active st.ring.nextSeq := by
  obtain ⟨hflash, hcounts, -⟩ := st.restore_sameIndex
  obtain ⟨-, -, hnext, hop, hattempts, -⟩ := st.restore_fields
  refine ⟨hnext, hop, hattempts, fun w hw hfree hlast => ?_⟩
  rw [Store.freeAt_of_flash hflash] at hfree hlast
  rw [hcounts, ← Store.erasedAt_iff]
  have hwrite : st.ring.writeSlot = w := Store.ring_writeSlot.trans (Store.slotAfterLast_eq hw hfree hlast)
  have hspare (he : st.erasedAt (st.ring.active + 1) = true) : st.ring.spare = some (st.ring.active + 1) := by
    rw [Store.ring_spare]
    exact if_pos he
  have hring : st.ring.victim = none ∧ st.ring.marks = st.marks := by
    rw [Store.ring]
    exact ⟨hvictim, rfl⟩
  obtain ⟨hv, hmarks⟩ := hring
  refine ⟨fun hlt he => ?_, fun hfull he => ?_, fun he => ?_⟩
  · have hspare : st.ring.spare = some (st.ring.active + 1) := by
      rw [Store.ring_spare]
      exact if_pos he
    rw [Store.restore_spare hvictim (hwrite ▸ hlt) he]
    generalize st.ring = t at *
    exact ⟨rfl, hwrite, hspare, hv, hmarks, rfl⟩
  · have hnext : nextSector st.ring.active + 1 = st.ring.active + 2 := add_assoc _ 1 1
    rw [Store.restore_handover (hwrite.trans hfull) he, ← hnext]
    generalize st.ring = t at *
    refine ⟨?_, ?_, Store.scanCompacts_compacting
      (t := { t with active := nextSector t.active, spare := none, writeSlot := 0 }) hmarks⟩
    · rw [Store.compacting_frame]
      rfl
    · rw [Store.compacting_frame]
  · rw [Store.restore_unerased hvictim (Bool.eq_false_iff.mpr he)]
    generalize st.ring = t at *
    refine ⟨?_, ?_, Store.scanCompacts_compacting hmarks⟩
    · rw [Store.compacting_frame]
    · rw [Store.compacting_frame]
      exact hwrite

/-- The ring found of the records in the flash (R163): at sector 0 where there is none. -/
def Store.ringFound (st u : Store) : Prop :=
  ((∀ x r, ¬ u.holds x r) → st.ringAt u 0 1) ∧
    ∀ x r, u.holds x r → (∀ y r', u.holds y r' → y ≠ x → r'.sequence < r.sequence) →
      st.ringAt u x.1 (r.sequence + 1)

theorem Store.restore_ringFound (hvictim : st.victim = none) : st.ringFound st.restore := by
  have hring := Store.restore_ringAt hvictim
  rw [Store.ringFound, Store.holds_of_flash st.restore_sameIndex.flash]
  refine ⟨fun hempty => ?_, fun x r hx htop => ?_⟩
  · obtain ⟨ha, hn⟩ := Store.ring_empty hempty
    rwa [ha, hn] at hring
  · obtain ⟨ha, hn⟩ := Store.ring_top hx htop
    rwa [ha, hn] at hring

end

end Sys2Proof.Machine
end

section
/-! The meter store's erases and the start-up scan (R156 to R158, R161 to R163): an erase with its verify, the end of
the scan's reading, and the end of the scan. -/

namespace Sys2Proof.Machine

/-! ### Events that are not there (log entry 8), and what the others run -/

section
variable {s : State} {k : Fin 4}

theorem exec_storeEraseBegin_idle (h : s.store.eraseDue = false) : exec .storeEraseBegin s = .next s := by
  change execStoreEraseBegin s = _
  unfold execStoreEraseBegin
  split
  · rw [h, if_neg Bool.false_ne_true]
  · rfl

theorem exec_storeEraseBegin (h : s.store.eraseDue = true) (hk : s.store.victim = some k) :
    exec .storeEraseBegin s = .next { s with store := s.store.beginErase k 1 } := by
  change execStoreEraseBegin s = _
  rw [execStoreEraseBegin, hk, h]
  rfl

theorem exec_storeEraseEnd (h : s.store.op = some (.erase k)) (left : List (Nat × Byte)) :
    exec (.storeEraseEnd left) s = .next (s.endErase k left) := by
  change execStoreEraseEnd left s = _
  rw [execStoreEraseEnd, h]

theorem exec_storeEraseEnd_idle (h : ∀ k, s.store.op ≠ some (.erase k)) (left : List (Nat × Byte)) :
    exec (.storeEraseEnd left) s = .next s := by
  change execStoreEraseEnd left s = _
  unfold execStoreEraseEnd
  split
  · next k hk => exact absurd hk (h k)
  · rfl

theorem exec_scanReadDone (h : s.store.scan = some .reading) : exec .scanReadDone s = .next s.readDone := by
  change execScanReadDone s = _
  rw [execScanReadDone, if_pos h]

theorem exec_scanReadDone_idle (h : s.store.scan ≠ some .reading) : exec .scanReadDone s = .next s := by
  change execScanReadDone s = _
  rw [execScanReadDone, if_neg h]

theorem exec_scanEnd (h : s.store.scan = some .ending) : exec .scanEnd s = .next s.endScan := by
  change execScanEnd s = _
  rw [execScanEnd, if_pos h]

theorem exec_scanEnd_idle (h : s.store.scan ≠ some .ending) : exec .scanEnd s = .next s := by
  change execScanEnd s = _
  rw [execScanEnd, if_neg h]

end

/-! ### The erase itself and its verify (R157) -/

section
variable (st : Store) (k : Fin 4)

/-- The counts that an erase takes are those of the slots it leaves. -/
theorem Store.erase_count (left : List (Nat × Byte)) :
    (st.erase k left).counts[k] = (st.erase k left).countSector k :=
  getElem_set_same _ _ _

theorem Store.erase_freeAt (left : List (Nat × Byte)) (i : Nat) : (st.erase k left).freeAt k i = true ↔
    ∀ j, j < 32 → Memory.read 0xFF (flashErase st.flash k left) (slotAddress k i + j) = 0xFF :=
  (Store.freeAt_iff ..).trans (slotKindOf_free _ k i)

theorem Store.erase_allFree (i : Nat) (hi : i < 256) : (st.erase k []).freeAt k i = true :=
  (st.erase_freeAt k [] i).mpr fun j hj => flashErase_clean st.flash k _
    (by simp only [slotAddress, Config.sectorBytes, Config.slotBytes]; omega)
    (by simp only [slotAddress, Config.sectorBytes, Config.slotBytes]; omega)

/-- A sector erased as a whole counts 256 free slots and nothing else. -/
theorem Store.erase_clean_count : (st.erase k []).counts[k] = ⟨256, 0, 0, 0⟩ :=
  (st.erase_count k []).trans (Store.countSector_allFree _ k (st.erase_allFree k))

theorem Store.erase_verifies : (st.erase k []).erasedAt k = true :=
  (Store.erasedAt_iff ..).mpr (by rw [st.erase_clean_count k])

variable {k} in
/-- A byte left in the sector fails the verify. -/
theorem Store.erase_fails {left : List (Nat × Byte)} (hsome : left ≠ [])
    (hleft : ∀ c ∈ left, c.1 < 8192 ∧ c.2 ≠ 0xFF) : (st.erase k left).erasedAt k = false := by
  obtain ⟨c, hc⟩ := List.exists_mem_of_ne_nil left hsome
  obtain ⟨hlt, -⟩ := hleft c hc
  obtain ⟨c', hc', -, hread⟩ := leaveResidue_at k (Memory.clear (k.val * 8192) 8192 st.flash) hleft hc
  refine Bool.eq_false_iff.mpr fun herased => (hleft c' hc').2 (hread.symm.trans ?_)
  rw [Store.erasedAt_iff, Store.erase_count, Store.countSector_erased] at herased
  have hslot := (st.erase_freeAt k left (c.1 / 32)).mp (herased _ (by omega)) (c.1 % 32) (Nat.mod_lt _ (by omega))
  have haddress : slotAddress k (c.1 / 32) + c.1 % 32 = k.val * 8192 + c.1 := by
    simp only [slotAddress, Config.sectorBytes, Config.slotBytes]
    omega
  rw [haddress] at hslot
  exact hslot

end

section
variable {s : State} {k : Fin 4} {left : List (Nat × Byte)}

theorem State.endErase_verified (h : (s.store.erase k left).erasedAt k = true) :
    s.endErase k left = { s with store := (s.store.erase k left).eraseVerified k } := if_pos h

theorem State.endErase_unverified (h : (s.store.erase k left).erasedAt k = false) :
    s.endErase k left = ({ s with store := s.store.erase k left } : State).eraseFailed k :=
  if_neg (Bool.eq_false_iff.mp h)

end

theorem State.endErase_store (s : State) (k : Fin 4) :
    (s.endErase k []).store = (s.store.erase k []).eraseVerified k := by
  rw [State.endErase_verified (s.store.erase_verifies k)]

/-! ### After a verified erase (R156, R157, R161) -/

section
variable {st : Store} {rest : List (Fin 4)} (k : Fin 4)

theorem Store.eraseVerified_clearing (h : st.scan = some (.clearing rest)) :
    st.eraseVerified k = ({ st with erased := st.erased + 1 } : Store).clearNext rest := by
  rw [Store.eraseVerified, h]

theorem Store.eraseVerified_compacting (h : st.scan = some .compacting) : st.eraseVerified k = { st with
    op := none, victim := none, spare := some k, attempts := 0, erased := st.erased + 1, scan := some .ending } := by
  rw [Store.eraseVerified, h]

theorem Store.eraseVerified_none (h : st.scan = none) : st.eraseVerified k = { st with
    op := none, victim := none, spare := some k, attempts := 0, state := .idle } := by
  rw [Store.eraseVerified, h]

theorem Store.eraseVerified_sameIndex : st.SameIndex (st.eraseVerified k) := by
  unfold Store.eraseVerified
  split
  · next rest hscan =>
    obtain ⟨hflash, hcounts, hnewest⟩ := Store.clearNext_sameIndex rest { st with erased := st.erased + 1 }
    exact ⟨hflash, hcounts, hnewest⟩
  · exact ⟨rfl, rfl, rfl⟩
  · exact ⟨rfl, rfl, rfl⟩

end

/-! ### After an erase that fails its verify (R157, R158, R163) -/

section
variable {s : State} {k : Fin 4}

theorem State.eraseFailed_again (h : s.store.attempts < 2) :
    s.eraseFailed k = { s with store := s.store.beginErase k 2 } := if_pos h

theorem State.eraseFailed_clearing {rest : List (Fin 4)} (h : 2 ≤ s.store.attempts)
    (hscan : s.store.scan = some (.clearing rest)) :
    s.eraseFailed k = { s with store := s.store.ring.scanFails (.erase k) } := by
  rw [State.eraseFailed, if_neg (Nat.not_lt.mpr h), hscan]
  rfl

theorem State.eraseFailed_compacting (h : 2 ≤ s.store.attempts) (hscan : s.store.scan = some .compacting) :
    s.eraseFailed k = { s with store := s.store.scanFails (.erase k) } := by
  rw [State.eraseFailed, if_neg (Nat.not_lt.mpr h), hscan]
  rfl

theorem State.eraseFailed_none (h : 2 ≤ s.store.attempts) (hscan : s.store.scan = none) :
    s.eraseFailed k = s.storeFails (.erase k) := by
  rw [State.eraseFailed, if_neg (Nat.not_lt.mpr h), hscan]

/-- A failed verify touches neither the flash nor anything outside the store but the notices. -/
theorem State.eraseFailed_rest (s : State) (k : Fin 4) : (s.eraseFailed k).mu = s.mu ∧
    (s.eraseFailed k).presses = s.presses ∧ (s.eraseFailed k).store.flash = s.store.flash := by
  unfold State.eraseFailed
  split
  · exact ⟨rfl, rfl, rfl⟩
  · split <;> exact ⟨rfl, rfl, rfl⟩

end

/-! ### The sectors that the scan clears (R163) -/

/-- The first sector of a condition, and those that follow it. -/
theorem filter_finRange_first {f : Fin 4 → Bool} {k : Fin 4} (hk : f k = true) (h : ∀ i < k, f i = false) :
    ∃ rest, (List.finRange 4).filter f = k :: rest ∧ rest.Pairwise (· < ·) ∧
      ∀ i, i ∈ rest ↔ k < i ∧ f i = true := by
  have hmem (i : Fin 4) : i ∈ (List.finRange 4).filter f ↔ f i = true := by simp
  have hsorted : ((List.finRange 4).filter f).Pairwise (· < ·) := (List.pairwise_lt_finRange 4).filter f
  generalize (List.finRange 4).filter f = l at hmem hsorted
  cases l with
  | nil => exact absurd ((hmem k).mpr hk) List.not_mem_nil
  | cons j rest =>
    obtain ⟨hj, hrest⟩ := List.pairwise_cons.mp hsorted
    have hjk : j = k := by
      refine ((List.mem_cons.mp ((hmem k).mpr hk)).resolve_right fun hin => ?_).symm
      exact Bool.false_ne_true ((h j (hj k hin)).symm.trans ((hmem j).mp List.mem_cons_self))
    subst hjk
    refine ⟨rest, rfl, hrest, fun i => ⟨fun hi => ⟨hj i hi, (hmem i).mp (List.mem_cons_of_mem _ hi)⟩, ?_⟩⟩
    rintro ⟨hlt, hi⟩
    exact (List.mem_cons.mp ((hmem i).mpr hi)).resolve_left (ne_of_gt hlt)

section
variable (st : Store)

theorem Store.classify_count (k : Fin 4) : st.classify.counts[k] = st.countSector k := by
  simp [Store.classify]

theorem Store.classify_newest (p : Fin 16) : st.classify.newest[p] = (newestOf st.records p).map Prod.fst := by
  simp [Store.classify]

end

/-! ### The end of the scan's reading (R162, R163) -/

section
variable (s : State)

theorem State.readDone_frame : s.readDone = { s with
    store := s.store.classify.clearNext s.store.classify.toClear
    mu := { s.mu with meters := Vector.ofFn fun p => { s.mu.meters[p] with live := s.store.classify.loaded p } } } := by
  rw [State.readDone, State.loadMeters]
  dsimp only [State.mapStore, State.mapMu]

theorem State.readDone_rest : s.readDone.presses = s.presses ∧ s.readDone.jobs = s.jobs ∧ s.readDone.mlc = s.mlc ∧
    s.readDone.mu.accounts = s.mu.accounts ∧ s.readDone.mu.plans = s.mu.plans := by
  rw [State.readDone_frame]
  exact ⟨rfl, rfl, rfl, rfl, rfl⟩

theorem State.readDone_meter (p : Fin 16) :
    s.readDone.mu.meters[p] = { s.mu.meters[p] with live := s.readDone.live p } := by
  rw [State.readDone_frame]
  simp only [State.live, Fin.getElem_fin, Vector.getElem_ofFn]

theorem State.readDone_newest (p : Fin 16) :
    s.readDone.store.newest[p] = (newestOf s.store.records p).map Prod.fst := by
  have hindex := Store.clearNext_sameIndex s.store.classify.toClear s.store.classify
  rw [State.readDone_frame]
  exact (congrArg (fun v : Vector (Option Newest) 16 => v[p]) hindex.newest).trans (s.store.classify_newest p)

/-- A press without a record is loaded as 0, and has no newest record. -/
theorem State.readDone_recordless {p : Fin 16} (h : ∀ x r, s.store.holds x r → r.press ≠ p) :
    s.readDone.mu.meters[p].live = ⟨0, 0, 0, 0⟩ ∧ s.readDone.store.newest[p] = none := by
  rw [State.readDone_meter, State.readDone_newest, State.readDone_live, Store.loaded, Store.newestOf_none h]
  exact ⟨rfl, rfl⟩

/-- A press is loaded from its record of highest sequence, and that is its newest record (R162). -/
theorem State.readDone_loads {x : Fin 4 × Nat} {r : MeterRecord} (hx : s.store.holds x r)
    (h : ∀ y r', s.store.holds y r' → r'.press = r.press → y ≠ x → r'.sequence < r.sequence) :
    s.readDone.mu.meters[r.press].live = r.counters ∧
      s.readDone.store.newest[r.press] = some ⟨x.1, x.2, r.sequence⟩ := by
  rw [State.readDone_meter, State.readDone_newest, State.readDone_live, Store.loaded, Store.newestOf_some hx h]
  exact ⟨rfl, rfl⟩

/-- The sectors that the scan clears: neither erased nor holding a record. -/
def State.clears (k : Fin 4) : Prop := ¬ s.readDone.store.counts[k].free = 256 ∧ ∀ i r, ¬ s.store.holds (k, i) r

theorem State.clears_iff (k : Fin 4) :
    (!s.store.classify.erasedAt k && decide (s.store.classify.counts[k].record = 0)) = true ↔ s.clears k := by
  have hcounts : s.readDone.store.counts = s.store.classify.counts := s.readDone_index.2
  rw [Bool.and_eq_true, Bool.not_eq_true', decide_eq_true_iff, ← Bool.not_eq_true, Store.erasedAt_iff, State.clears,
    hcounts, s.store.classify_count, Store.countSector_recordless]
  rfl

/-- With no sector to clear the scan finds its ring at once. -/
theorem State.readDone_ring (hnone : ∀ k, ¬ s.clears k) (hvictim : s.store.victim = none) :
    s.store.ringFound s.readDone.store := by
  have hclear : s.store.classify.toClear = [] :=
    List.filter_eq_nil_iff.mpr fun k _ h => hnone k ((s.clears_iff k).mp h)
  rw [State.readDone_frame, hclear]
  exact Store.restore_ringFound (st := s.store.classify) hvictim

/-- Otherwise it begins with the first of them. -/
theorem State.readDone_clears {k : Fin 4} (hk : s.clears k) (hfirst : ∀ i < k, ¬ s.clears i) :
    ∃ rest, s.readDone.store = { s.store.classify.beginErase k 1 with scan := some (.clearing rest) } ∧
      rest.Pairwise (· < ·) ∧ ∀ i, i ∈ rest ↔ k < i ∧ s.clears i := by
  obtain ⟨rest, hclear, hsorted, hmem⟩ := filter_finRange_first ((s.clears_iff k).mpr hk)
    fun i hi => Bool.eq_false_iff.mpr fun h => hfirst i hi ((s.clears_iff i).mp h)
  refine ⟨rest, ?_, hsorted, fun i => (hmem i).trans (and_congr_right' (s.clears_iff i))⟩
  rw [State.readDone_frame, Store.toClear, hclear]
  rfl

theorem State.readDone_state (h : s.store.state = .scanning) : s.readDone.store.state = .scanning := by
  have hnext (l : List (Fin 4)) (st : Store) (hst : st.state = .scanning) : (st.clearNext l).state = .scanning := by
    cases l with
    | nil => exact st.restore_fields.1.trans hst
    | cons k rest => exact if_pos hst
  rw [State.readDone_frame]
  exact hnext _ s.store.classify h

end

/-! ### The end of the scan (R161, R163, R208) -/

section
variable {s : State}

theorem State.storeSettles_idle (hfailed : s.store.failed = none) (hseq : s.store.nextSeq ≤ 0xFFFFFFFE) :
    s.storeSettles = { s with store := { s.store with scan := none, state := .idle, attempts := 0 } } := by
  have hworn : s.store.worn = false := Bool.eq_false_iff.mpr fun h => Nat.not_lt.mpr hseq (s.store.worn_iff.mp h)
  have hnone : ({ s.store with scan := none, state := .idle, attempts := 0 } : Store).scanFailure = none := by
    unfold Store.scanFailure
    rw [hfailed]
    exact if_neg (Bool.eq_false_iff.mp hworn)
  unfold State.storeSettles
  dsimp only [State.mapStore]
  rw [hnone]

theorem State.storeSettles_failed {r : FailReason} (h : s.store.scanFailure = some r) : s.storeSettles =
    ({ s with store := { s.store with scan := none, state := .idle, attempts := 0 } } : State).storeFails r := by
  have hsome : ({ s.store with scan := none, state := .idle, attempts := 0 } : Store).scanFailure = some r := h
  unfold State.storeSettles
  dsimp only [State.mapStore]
  rw [hsome]

theorem Store.scanFailure_failed {st : Store} {r : FailReason} (h : st.failed = some r) : st.scanFailure = some r := by
  rw [Store.scanFailure, h]

theorem Store.scanFailure_worn {st : Store} (h : st.failed = none) (hseq : 0xFFFFFFFE < st.nextSeq) :
    st.scanFailure = some .worn := by
  rw [Store.scanFailure, h]
  exact if_pos (st.worn_iff.mpr hseq)

end

section
variable (s : State)

theorem State.scannedNotice_store : s.scannedNotice.store = s.store := by
  unfold State.scannedNotice
  split <;> rfl

theorem State.endScan_eq : s.endScan = State.notice .mode 1 0
    (u8 s.storeSettles.store.cause.code ++ u8 s.storeSettles.store.state.code) s.storeSettles.scannedNotice := by
  rw [State.endScan, State.scannedNotice_store]

/-- A verified erase sets its whole sector to 0xFF and leaves every other byte, and everything outside the store. -/
theorem State.endErase_clean (k : Fin 4) :
    let u := s.endErase k []
    u.store.counts[k] = ⟨256, 0, 0, 0⟩ ∧ (∀ i : Fin 4, i ≠ k → u.store.counts[i] = s.store.counts[i]) ∧
      u.mlc = s.mlc ∧ u.mu = s.mu ∧ u.presses = s.presses ∧ u.jobs = s.jobs ∧
      (∀ a, k.val * 8192 ≤ a ∧ a < (k.val + 1) * 8192 → Memory.read 0xFF u.store.flash a = 0xFF) ∧
      ∀ a, ¬ (k.val * 8192 ≤ a ∧ a < (k.val + 1) * 8192) →
        Memory.read 0xFF u.store.flash a = Memory.read 0xFF s.store.flash a := by
  obtain ⟨hflash, hcounts, -⟩ := (Store.eraseVerified_sameIndex (st := s.store.erase k []) k)
  rw [State.endErase_verified (s.store.erase_verifies k)]
  dsimp only
  rw [hflash, hcounts]
  refine ⟨s.store.erase_clean_count k, fun i hi => getElem_set_other _ hi _, rfl, rfl, rfl, rfl, fun a ⟨hlo, hhi⟩ => ?_,
    fun a ha => ?_⟩
  · exact flashErase_clean _ k a hlo hhi
  · refine flashErase_other _ k [] a ?_
    simp only [Config.sectorBytes]
    omega

/-- After the last of the sectors to clear the scan finds its ring (R163). -/
theorem State.endErase_last {k : Fin 4} (hscan : s.store.scan = some (.clearing [])) :
    let u := (s.endErase k []).store
    u.state = s.store.state ∧ u.op = none ∧ u.attempts = 0 ∧ u.erased = s.store.erased + 1 ∧
      u.scan = some (if u.victim.isSome then .compacting else .ending) ∧
      (s.store.victim = none → s.store.ringFound u) := by
  have hstore : (s.endErase k []).store =
      ({ s.store.erase k [] with erased := s.store.erased + 1 } : Store).restore :=
    (s.endErase_store k).trans (Store.eraseVerified_clearing (st := s.store.erase k []) k hscan)
  obtain ⟨hstate, herased, -, hop, hattempts, hphase⟩ :=
    ({ s.store.erase k [] with erased := s.store.erased + 1 } : Store).restore_fields
  rw [hstore]
  exact ⟨hstate, hop, hattempts, herased, hphase,
    Store.restore_ringFound (st := { s.store.erase k [] with erased := s.store.erased + 1 })⟩

/-- Whatever bytes an erase leaves, its failed verify changes the sector alone: those bytes stand in it and every other
byte of it is erased. -/
theorem State.endErase_left {k : Fin 4} {left : List (Nat × Byte)} (hsome : left ≠ [])
    (hleft : ∀ c ∈ left, c.1 < 8192 ∧ c.2 ≠ 0xFF) :
    let u := s.endErase k left
    u.mu = s.mu ∧ u.presses = s.presses ∧
      (∀ a, ¬ (k.val * 8192 ≤ a ∧ a < (k.val + 1) * 8192) →
        Memory.read 0xFF u.store.flash a = Memory.read 0xFF s.store.flash a) ∧
      (∀ a, k.val * 8192 ≤ a ∧ a < (k.val + 1) * 8192 → (∀ c ∈ left, a ≠ k.val * 8192 + c.1) →
        Memory.read 0xFF u.store.flash a = 0xFF) ∧
      ((left.map Prod.fst).Nodup → ∀ c ∈ left, Memory.read 0xFF u.store.flash (k.val * 8192 + c.1) = c.2) := by
  obtain ⟨hmu, hpresses, hflash⟩ := State.eraseFailed_rest { s with store := s.store.erase k left } k
  rw [State.endErase_unverified (s.store.erase_fails hsome hleft)]
  dsimp only
  rw [hflash]
  refine ⟨hmu, hpresses, fun a ha => ?_, fun a ⟨hlo, hhi⟩ ha => ?_, fun honce c hc => ?_⟩
  · refine flashErase_other _ k left a ?_
    simp only [Config.sectorBytes]
    omega
  · exact flashErase_within k _ (fun c hc => (hleft c hc).1) hlo hhi ha
  · exact flashErase_at k _ hleft honce hc

end

/-- Settles O60: the verify of an erase is the count of its sector's free slots, which one byte left makes fall short;
the scan reads its records as a list of which the one of highest sequence is the newest; and the repair of the ring
ends in the three cases of `Store.ringAt`. -/
theorem storeErasesAndScans : Obligations.StoreErasesAndScans := by
  intro s st old within pendingCount erased record isErased compacts ringAt ring
  refine ⟨exec_storeEraseBegin_idle, fun k => exec_storeEraseBegin, fun k hop => ⟨?_, fun left hsome hleft => ?_⟩,
    exec_storeEraseEnd_idle, ⟨exec_scanReadDone_idle, fun hscan hstate => ?_⟩, exec_scanEnd_idle, fun hscan => ?_⟩
  · refine ⟨_, exec_storeEraseEnd hop [], s.endErase_clean k, fun hscan => ?_, fun k' rest hscan hstate => ?_,
      fun hscan hstate => ?_, fun hscan => ?_⟩
    · rw [State.endErase_store, Store.eraseVerified_none (st := st.erase k []) k hscan]
      exact ⟨rfl, rfl, rfl, rfl, rfl, rfl⟩
    · rw [State.endErase_store, Store.eraseVerified_clearing (st := st.erase k []) k hscan]
      exact ⟨if_pos hstate, rfl, rfl, rfl, rfl, rfl⟩
    · obtain ⟨hs, ho, ha, he, hphase, hring⟩ := s.endErase_last (k := k) hscan
      refine ⟨hs.trans hstate, ho, ha, he, hphase, hring⟩
    · rw [State.endErase_store, Store.eraseVerified_compacting (st := st.erase k []) k hscan]
      exact ⟨rfl, rfl, rfl, rfl, rfl, rfl, rfl, rfl⟩
  · obtain ⟨hmu, hpresses, hother, hwithin, hat⟩ := s.endErase_left (k := k) hsome hleft
    refine ⟨_, exec_storeEraseEnd hop left, hmu, hpresses, hother, hwithin, hat, fun hagain => ?_, fun hend hscan => ?_,
      fun hend hscan => ?_⟩
    all_goals rw [State.endErase_unverified (st.erase_fails hsome hleft)]
    · rw [State.eraseFailed_again (s := { s with store := st.erase k left }) hagain]
      exact ⟨rfl, rfl, rfl, rfl⟩
    · rw [State.eraseFailed_none (s := { s with store := st.erase k left }) hend hscan]
      exact ⟨rfl, rfl, rfl, rfl, rfl, rfl⟩
    · obtain ⟨rest, hscan⟩ | hscan := hscan
      · rw [State.eraseFailed_clearing (s := { s with store := st.erase k left }) hend hscan]
        exact ⟨rfl, rfl, rfl, rfl, rfl⟩
      · rw [State.eraseFailed_compacting (s := { s with store := st.erase k left }) hend hscan]
        exact ⟨rfl, rfl, rfl, rfl, rfl⟩
  · obtain ⟨hpresses, hjobs, hmlc, haccounts, hplans⟩ := s.readDone_rest
    refine ⟨_, exec_scanReadDone hscan, s.readDone_state hstate, s.readDone_index.1, hpresses, hjobs, hmlc, haccounts,
      hplans, s.readDone_erased, ⟨s.readDone_ring, fun k hk hfirst => ?_⟩, fun p => ⟨?_, s.readDone_recordless, ?_⟩⟩
    · obtain ⟨rest, hstore, hsorted, hmem⟩ := s.readDone_clears hk hfirst
      rw [hstore]
      exact ⟨rfl, rfl, rfl, rest, rfl, hsorted, hmem⟩
    · rw [State.readDone_meter]
    · rintro x r hx rfl htop
      exact s.readDone_loads hx htop
  · intro recordless close
    rw [exec_scanEnd hscan, State.endScan_eq]
    refine ⟨fun hfailed hseq => ?_, fun hworn => ?_, fun k hfailed => ?_⟩
    · rw [State.storeSettles_idle hfailed hseq]
      rfl
    · have hfailure : st.scanFailure = some .worn :=
        hworn.elim Store.scanFailure_failed fun ⟨hfailed, hseq⟩ => Store.scanFailure_worn hfailed hseq
      rw [State.storeSettles_failed hfailure]
      rfl
    · rw [State.storeSettles_failed (Store.scanFailure_failed hfailed)]
      rfl

end Sys2Proof.Machine
end

section
/-! ALERT_MODE_SET and ALERT_LIST (R168, R181): the body read back, the clamp, and the reports of one press and of all. -/

namespace Sys2Proof.Machine

/-! ### ALERT_MODE_SET (R168) -/

theorem alertKind?_code (k : AlertKind) : alertKind? (BitVec.ofNat 8 k.code.val) = some k := by
  rw [alertKind?, byte_index 11 k.code (by decide), AlertKind.all_code]

/-- REPORT and IGNORE of JAM and LINK_SILENT are written as RETRY. -/
theorem clampMode_clamped {k : AlertKind} {m : AlertMode}
    (h : (k = .jam ∨ k = .linkSilent) ∧ (m = .report ∨ m = .ignore)) : clampMode k m = .retry ∧ clampMode k m ≠ m := by
  obtain ⟨rfl | rfl, rfl | rfl⟩ := h <;> exact ⟨rfl, nofun⟩

/-- Every other mode is written as sent. -/
theorem clampMode_free {k : AlertKind} {m : AlertMode}
    (h : ¬ ((k = .jam ∨ k = .linkSilent) ∧ (m = .report ∨ m = .ignore))) : clampMode k m = m := by
  unfold clampMode
  split
  · exact absurd ⟨.inl rfl, .inl rfl⟩ h
  · exact absurd ⟨.inl rfl, .inr rfl⟩ h
  · exact absurd ⟨.inr rfl, .inl rfl⟩ h
  · exact absurd ⟨.inr rfl, .inr rfl⟩ h
  · rfl

section
variable {s : State} (tag : Byte)

/-- A delay in range is written with the mode as clamped, and the reply says whether it was. -/
theorem exec_alertModeSet (ht : s.takes = true) (k : AlertKind) (m : AlertMode) {n : Nat} (hmin : 1 ≤ n)
    (hmax : n ≤ 600) :
    exec (.alertModeSet tag (u8 k.code.val ++ u8 m.code ++ u16 n)) s =
      .next (State.reply 0x48 tag .ok
        (u8 k.code.val ++ u8 (clampMode k m).code ++ u16 n ++ flag (decide (clampMode k m ≠ m)))
        (s.mapAu (Au.setMode k ⟨clampMode k m, n⟩))) := by
  have hown : alertModeSet (u8 k.code.val ++ u8 m.code ++ u16 n) s =
      accept (u8 k.code.val ++ u8 (clampMode k m).code ++ u16 n ++ flag (decide (clampMode k m ≠ m)))
        (s.mapAu (Au.setMode k ⟨clampMode k m, n⟩)) := by
    simp only [u8, u16, List.cons_append, List.nil_append, alertModeSet, alertKind?_code, alertMode?_code,
      be16_u16 n (by omega), if_pos (And.intro hmin hmax)]
  change Host.Outcome.next (takeRequest 0x48 tag false (alertModeSet _) s) = _
  rw [takeRequest_taken _ _ _ _ _ ht, hown]
  rfl

/-! ### ALERT_LIST (R181) -/

theorem exec_alertList_press (ht : s.takes = true) (p : Fin 16) :
    exec (.alertList tag (1 :: u8 p.val)) s = .next (s.reply 0x49 tag .ok (s.alertsOf p)) := by
  have hown : alertList (1 :: u8 p.val) s = accept (s.alertsOf p) s := by
    have hfield : optField 1 (1 :: u8 p.val) = .present (u8 p.val) := rfl
    have hbyte : byteAt (u8 p.val) 0 = BitVec.ofNat 8 p.val := rfl
    simp only [alertList, hfield, hbyte, toFin?_pressByte]
  change Host.Outcome.next (takeRequest 0x49 tag false (alertList _) s) = _
  rw [takeRequest_taken _ _ _ _ _ ht, hown]
  rfl

theorem exec_alertList_all (ht : s.takes = true) :
    exec (.alertList tag [0]) s = .next (s.reply 0x49 tag .ok s.alertsOfAll) := by
  change Host.Outcome.next (takeRequest 0x49 tag false (alertList [0]) s) = _
  rw [takeRequest_taken _ _ _ _ _ ht]
  rfl

/-- Two tables of one length, place by place. -/
theorem zip_toList {α β : Type} {n : Nat} (v : Vector α n) (w : Vector β n) :
    v.toList.zip w.toList = (List.finRange n).map fun i => (v[i], w[i]) :=
  List.ext_getElem (by simp) fun i _ _ => by simp

end

/-- Settles O47: the body of ALERT_MODE_SET reads back and its mode is clamped as R168 says; ALERT_LIST reports the press
that it names, or every press and the response modes. -/
theorem alertModesSetAndListed : Obligations.AlertModesSetAndListed := by
  intro tag s ht
  refine ⟨fun k m n hmin hmax => ?_, fun p => exec_alertList_press tag ht p, ?_⟩
  · intro clamped done request
    have hexec : exec request s = _ := exec_alertModeSet tag ht k m hmin hmax
    refine ⟨fun h => ?_, fun h => ?_⟩
    · obtain ⟨hretry, hmoved⟩ := clampMode_clamped h
      rw [hexec, decide_eq_true hmoved, hretry]
      rfl
    · rw [hexec, clampMode_free h, decide_eq_false (not_not_intro rfl)]
      rfl
  · rw [exec_alertList_all tag ht, zip_toList, List.flatMap_map]
    rfl

end Sys2Proof.Machine
end

section
/-! What the laws of holds and patterns (R170, R187) read of the part, and both laws said of it: an operation that
leaves this leaves the laws, and the alert unit's answers move it in one way. -/

namespace Sys2Proof.Machine

theorem tableEntries_emptyTable : tableEntries emptyTable = [] := by decide

theorem tableHolds_emptyTable : tableHolds emptyTable = false := by decide

/-! ### What the two laws read -/

/-- Of a press: its held flag, its zone, whether it is DISABLED, and the stall watch that it then has. -/
structure PressAlarm where
  held     : Bool
  zone     : Fin 4
  disabled : Bool
  watch    : Option Watch

/-- Of the part: its presses, the alert tables and the patterns. -/
structure Alarms where
  press   : Fin 16 → PressAlarm
  table   : Fin 16 → Vector (Option AlertEntry) 11
  pattern : Fin 4 → Pattern

def Press.alarm (pr : Press) : PressAlarm where
  held := pr.held
  zone := pr.profile.zone
  disabled := decide (pr.link = .disabled)
  watch := if pr.link = .disabled then pr.watch else none

def State.alarms (s : State) : Alarms where
  press p := s.presses[p].alarm
  table p := s.au.tables[p]
  pattern z := s.zones[z].pattern

/-- A press that is not DISABLED. -/
def Alarms.Enabled (a : Alarms) (p : Fin 16) : Prop := (a.press p).disabled = false

/-- The entries that a press brings to a zone: those of its table when it is a member (R186). -/
def Alarms.share (a : Alarms) (z : Fin 4) (p : Fin 16) : List AlertEntry :=
  if (a.press p).zone = z then tableEntries (a.table p) else []

/-- The entries of a zone's members. -/
def Alarms.entries (a : Alarms) (z : Fin 4) : List AlertEntry := (List.finRange 16).flatMap (a.share z)

/-- The law of holds (R170). -/
def Alarms.Holding (a : Alarms) : Prop := ∀ p, (a.press p).held = tableHolds (a.table p)

/-- A DISABLED press has an empty table and no stall watch (R183). -/
def Alarms.Resting (a : Alarms) : Prop :=
  ∀ p, (a.press p).disabled = true → a.table p = emptyTable ∧ (a.press p).watch = none

/-- The law of patterns (R187), with the rest of DISABLED presses. -/
structure Alarms.Shown (a : Alarms) : Prop where
  resting : a.Resting
  pattern : ∀ z, a.pattern z = patternOf (a.entries z)

theorem State.enabled_iff {s : State} {p : Fin 16} : s.alarms.Enabled p ↔ s.presses[p].link ≠ .disabled :=
  decide_eq_false_iff_not

theorem State.enabled_of_online {s : State} {p : Fin 16} (h : s.presses[p].link = .online) : s.alarms.Enabled p :=
  State.enabled_iff.mpr (by rw [h]; exact nofun)

theorem State.holdsSound_iff (s : State) : s.holdsSound ↔ s.alarms.Holding := Iff.rfl

theorem State.alarms_entries (s : State) (z : Fin 4) : s.alarms.entries z = s.zoneEntries z := by
  have hfilter : ∀ l : List (Fin 16), l.flatMap (s.alarms.share z) =
      (l.filter fun p => decide (s.presses[p].profile.zone = z)).flatMap fun p => tableEntries s.au.tables[p] := by
    intro l
    induction l with
    | nil => rfl
    | cons p l ih =>
      rw [List.flatMap_cons, ih, List.filter_cons]
      by_cases h : s.presses[p].profile.zone = z
      · rw [if_pos (decide_eq_true h), List.flatMap_cons]
        exact congrArg (· ++ _) (if_pos h)
      · rw [if_neg (by rw [decide_eq_false h]; exact Bool.false_ne_true)]
        exact congrArg (· ++ _) (if_neg h)
  exact hfilter _

theorem State.zonesSound_iff (s : State) : s.zonesSound ↔ s.alarms.Shown := by
  have hresting : (∀ p : Fin 16, s.presses[p].link = .disabled →
      s.au.tables[p] = emptyTable ∧ s.presses[p].watch = none) ↔ s.alarms.Resting := by
    simp only [Alarms.Resting, State.alarms, Press.alarm, decide_eq_true_eq]
    refine forall_congr' fun p => forall_congr' fun h => ?_
    rw [if_pos h]
  have hpattern : (∀ z : Fin 4, s.zones[z].pattern = patternOf (s.zoneEntries z)) ↔
      ∀ z, s.alarms.pattern z = patternOf (s.alarms.entries z) :=
    forall_congr' fun z => by rw [s.alarms_entries]; exact Iff.rfl
  exact ⟨fun ⟨h, h'⟩ => ⟨hresting.mp h, hpattern.mp h'⟩, fun ⟨h, h'⟩ => ⟨hresting.mpr h, hpattern.mpr h'⟩⟩

/-! ### Passing the laws on -/

/-- Each of the two laws holds of `b` where it holds of `a`. -/
structure Alarms.Passes (a b : Alarms) : Prop where
  holding : a.Holding → b.Holding
  shown : a.Shown → b.Shown

/-- The laws pass on, and no press becomes DISABLED. -/
structure Alarms.Guards (a b : Alarms) : Prop extends a.Passes b where
  enabled : ∀ p, a.Enabled p → b.Enabled p

section
variable {a b c : Alarms}

theorem Alarms.Passes.trans (x : a.Passes b) (y : b.Passes c) : a.Passes c :=
  ⟨y.holding ∘ x.holding, y.shown ∘ x.shown⟩

theorem Alarms.Guards.refl (a : Alarms) : a.Guards a := ⟨⟨id, id⟩, fun _ => id⟩

theorem Alarms.Guards.of_eq (h : b = a) : a.Guards b := h ▸ .refl a

theorem Alarms.Guards.trans (x : a.Guards b) (y : b.Guards c) : a.Guards c :=
  ⟨x.toPasses.trans y.toPasses, fun p => y.enabled p ∘ x.enabled p⟩

theorem Alarms.Passes.of_eq (h : b = a) : a.Passes b := (Alarms.Guards.of_eq h).toPasses

/-! ### Presses written -/

/-- Press `p` written. -/
def Alarms.withPress (p : Fin 16) (x : PressAlarm) (a : Alarms) : Alarms :=
  { a with press := Function.update a.press p x }

theorem Alarms.withPress_same (p : Fin 16) (a : Alarms) : a.withPress p (a.press p) = a := by
  rw [Alarms.withPress, Function.update_eq_self]

/-- A press that keeps its zone shares with every zone what it did. -/
theorem Alarms.withPress_entries {p : Fin 16} {x : PressAlarm} (hzone : x.zone = (a.press p).zone) (z : Fin 4) :
    (a.withPress p x).entries z = a.entries z := by
  refine List.flatMap_congr fun q _ => ?_
  by_cases h : q = p
  · subst h
    simp only [Alarms.share, Alarms.withPress, Function.update_self, hzone]
  · simp only [Alarms.share, Alarms.withPress, Function.update_of_ne h]

section
variable {p : Fin 16} {x : PressAlarm}

theorem Alarms.withPress_holding (hheld : x.held = tableHolds (a.table p)) (h : ∀ q, q ≠ p →
    (a.press q).held = tableHolds (a.table q)) : (a.withPress p x).Holding := by
  intro q
  by_cases hq : q = p
  · subst hq
    simpa only [Alarms.withPress, Function.update_self] using hheld
  · simpa only [Alarms.withPress, Function.update_of_ne hq] using h q hq

theorem Alarms.withPress_resting (hx : x.disabled = true → a.table p = emptyTable ∧ x.watch = none) (h : a.Resting) :
    (a.withPress p x).Resting := by
  intro q hdis
  by_cases hq : q = p
  · subst hq
    simp only [Alarms.withPress, Function.update_self] at hdis ⊢
    exact hx hdis
  · simp only [Alarms.withPress, Function.update_of_ne hq] at hdis ⊢
    exact h q hdis

theorem Alarms.withPress_shown (hzone : x.zone = (a.press p).zone)
    (hx : x.disabled = true → a.table p = emptyTable ∧ x.watch = none) (h : a.Shown) : (a.withPress p x).Shown :=
  ⟨Alarms.withPress_resting hx h.resting, fun z => (h.pattern z).trans (by rw [Alarms.withPress_entries hzone])⟩

theorem Alarms.withPress_enabled (hlink : x.disabled = true → (a.press p).disabled = true) {q : Fin 16}
    (h : a.Enabled q) : (a.withPress p x).Enabled q := by
  by_cases hq : q = p
  · subst hq
    simp only [Alarms.Enabled, Alarms.withPress, Function.update_self]
    exact Bool.eq_false_iff.mpr fun hdis => absurd ((hlink hdis).symm.trans h) Bool.noConfusion
  · simpa only [Alarms.Enabled, Alarms.withPress, Function.update_of_ne hq] using h

/-- A press that keeps hold and zone, is DISABLED only if it was, and has no stall watch then that it had not. -/
theorem Alarms.withPress_guards (hheld : x.held = (a.press p).held) (hzone : x.zone = (a.press p).zone)
    (hrest : x.disabled = true → (a.press p).disabled = true ∧ ((a.press p).watch = none → x.watch = none)) :
    a.Guards (a.withPress p x) where
  holding h := Alarms.withPress_holding (hheld.trans (h p)) fun q _ => h q
  shown h := by
    refine Alarms.withPress_shown hzone (fun hdis => ?_) h
    obtain ⟨hwas, hwatch⟩ := hrest hdis
    obtain ⟨htable, hnone⟩ := h.resting p hwas
    exact ⟨htable, hwatch hnone⟩
  enabled _ := Alarms.withPress_enabled fun hdis => (hrest hdis).1

end

/-! ### Patterns derived again (R187) -/

/-- The pattern of one zone derived again. -/
def Alarms.derived (z : Fin 4) (a : Alarms) : Alarms :=
  { a with pattern := Function.update a.pattern z (patternOf (a.entries z)) }

theorem Alarms.derived_press (z : Fin 4) (a : Alarms) : (a.derived z).press = a.press := rfl

theorem Alarms.derived_table (z : Fin 4) (a : Alarms) : (a.derived z).table = a.table := rfl

theorem Alarms.derived_entries (z w : Fin 4) (a : Alarms) : (a.derived z).entries w = a.entries w := rfl

/-- Where every other zone shows its entries, all of them do. -/
theorem Alarms.derived_shown {z : Fin 4} (hrest : a.Resting)
    (hother : ∀ w, w ≠ z → a.pattern w = patternOf (a.entries w)) : (a.derived z).Shown := by
  refine ⟨hrest, fun w => ?_⟩
  by_cases h : w = z
  · subst h
    exact Function.update_self ..
  · exact (Function.update_of_ne h ..).trans (hother w h)

/-! ### A press in another zone (R189) -/

/-- Press `p` in zone `z`, before any pattern follows. -/
def Alarms.moved (p : Fin 16) (z : Fin 4) (a : Alarms) : Alarms := a.withPress p { a.press p with zone := z }

section
variable {p : Fin 16} {z : Fin 4}

theorem Alarms.moved_holding (h : a.Holding) : (a.moved p z).Holding := Alarms.withPress_holding (h p) fun q _ => h q

theorem Alarms.moved_resting (h : a.Resting) : (a.moved p z).Resting :=
  Alarms.withPress_resting (h p) h

theorem Alarms.moved_enabled {q : Fin 16} (h : a.Enabled q) : (a.moved p z).Enabled q :=
  Alarms.withPress_enabled (x := { a.press p with zone := z }) id h

/-- The entries of a zone stay where the press brings none to it before or after. -/
theorem Alarms.moved_entries {w : Fin 4} (h : w ≠ (a.press p).zone ∧ w ≠ z ∨ a.table p = emptyTable) :
    (a.moved p z).entries w = a.entries w := by
  refine List.flatMap_congr fun q _ => ?_
  by_cases hq : q = p
  · subst hq
    obtain ⟨hold, hnew⟩ | hnone := h
    · simp only [Alarms.share, Alarms.moved, Alarms.withPress, Function.update_self, if_neg hold.symm, if_neg hnew.symm]
    · simp only [Alarms.share, Alarms.moved, Alarms.withPress, hnone, tableEntries_emptyTable, ite_self]
  · simp only [Alarms.share, Alarms.moved, Alarms.withPress, Function.update_of_ne hq]

/-- A press without entries moves no pattern. -/
theorem Alarms.moved_guards (h : a.Shown → a.table p = emptyTable) : a.Guards (a.moved p z) where
  holding := Alarms.moved_holding
  shown ha := by
    refine ⟨Alarms.moved_resting ha.resting, fun w => (ha.pattern w).trans ?_⟩
    rw [Alarms.moved_entries (.inr (h ha))]
  enabled _ := Alarms.moved_enabled

/-- Otherwise the patterns of both zones follow. -/
theorem Alarms.moved_derived_guards : a.Guards (((a.moved p z).derived (a.press p).zone).derived z) where
  holding := Alarms.moved_holding
  shown ha := by
    refine Alarms.derived_shown (Alarms.moved_resting ha.resting) fun w hw => ?_
    by_cases hold : w = (a.press p).zone
    · subst hold
      exact Function.update_self ..
    · have hsame : (a.moved p z).entries w = a.entries w := Alarms.moved_entries (.inl ⟨hold, hw⟩)
      refine (Function.update_of_ne hold ..).trans ((ha.pattern w).trans ?_)
      rw [Alarms.derived_entries, hsame]
  enabled _ h := Alarms.moved_enabled (z := z) h

end

/-! ### The alert unit's answers -/

/-- Press `p` held or not, and its table written. -/
def Alarms.wrote (p : Fin 16) (held : Bool) (t : Vector (Option AlertEntry) 11) (a : Alarms) : Alarms :=
  { a.withPress p { a.press p with held } with table := Function.update a.table p t }

/-- The same, handed to the press's zone. -/
def Alarms.answered (p : Fin 16) (held : Bool) (t : Vector (Option AlertEntry) 11) (a : Alarms) : Alarms :=
  (a.wrote p held t).derived (a.press p).zone

section
variable {p q : Fin 16} {held : Bool} {t : Vector (Option AlertEntry) 11}

theorem Alarms.wrote_press_self : (a.wrote p held t).press p = { a.press p with held } := Function.update_self ..

theorem Alarms.wrote_press_other (h : q ≠ p) : (a.wrote p held t).press q = a.press q := Function.update_of_ne h ..

theorem Alarms.wrote_table_self : (a.wrote p held t).table p = t := Function.update_self ..

theorem Alarms.wrote_table_other (h : q ≠ p) : (a.wrote p held t).table q = a.table q := Function.update_of_ne h ..

theorem Alarms.wrote_wrote (held' : Bool) (t' : Vector (Option AlertEntry) 11) :
    (a.wrote p held t).wrote p held' t' = a.wrote p held' t' := by
  simp only [Alarms.wrote, Alarms.withPress, Function.update_self, Function.update_idem]

/-- Of every press no more than its hold moves. -/
theorem Alarms.wrote_press (a : Alarms) (q : Fin 16) :
    ∃ held', (a.wrote p held t).press q = { a.press q with held := held' } := by
  by_cases h : q = p
  · subst h
    exact ⟨held, Alarms.wrote_press_self⟩
  · exact ⟨(a.press q).held, Alarms.wrote_press_other h⟩

theorem Alarms.wrote_zone (a : Alarms) (q : Fin 16) : ((a.wrote p held t).press q).zone = (a.press q).zone := by
  obtain ⟨_, h⟩ := a.wrote_press (p := p) (held := held) (t := t) q
  rw [h]

theorem Alarms.wrote_disabled (a : Alarms) (q : Fin 16) :
    ((a.wrote p held t).press q).disabled = (a.press q).disabled := by
  obtain ⟨_, h⟩ := a.wrote_press (p := p) (held := held) (t := t) q
  rw [h]

theorem Alarms.wrote_enabled : (a.wrote p held t).Enabled q ↔ a.Enabled q := by
  rw [Alarms.Enabled, a.wrote_disabled q, Alarms.Enabled]

theorem Alarms.wrote_holding (hheld : held = tableHolds t) (h : a.Holding) : (a.wrote p held t).Holding := by
  intro q
  by_cases hq : q = p
  · subst hq
    rw [Alarms.wrote_press_self, Alarms.wrote_table_self]
    exact hheld
  · rw [Alarms.wrote_press_other hq, Alarms.wrote_table_other hq]
    exact h q

/-- The rest of DISABLED presses stays where the one written is not DISABLED. -/
theorem Alarms.wrote_resting (hp : a.Enabled p) (h : a.Resting) : (a.wrote p held t).Resting := by
  intro q hdis
  have hwas : (a.press q).disabled = true := (a.wrote_disabled q).symm.trans hdis
  have hq : q ≠ p := by
    rintro rfl
    exact absurd (hp.symm.trans hwas) Bool.noConfusion
  rw [Alarms.wrote_table_other hq, Alarms.wrote_press_other hq]
  exact h q hwas

/-- The zones of other presses have the entries that they had. -/
theorem Alarms.wrote_entries {w : Fin 4} (hw : w ≠ (a.press p).zone) :
    (a.wrote p held t).entries w = a.entries w := by
  refine List.flatMap_congr fun q _ => ?_
  rw [Alarms.share, a.wrote_zone q]
  by_cases hq : q = p
  · subst hq
    rw [if_neg hw.symm, Alarms.share, if_neg hw.symm]
  · rw [Alarms.wrote_table_other hq, Alarms.share]

theorem Alarms.answered_shown (hp : a.Enabled p) (h : a.Shown) : (a.answered p held t).Shown :=
  Alarms.derived_shown (Alarms.wrote_resting hp h.resting) fun w hw =>
    (h.pattern w).trans (congrArg patternOf (Alarms.wrote_entries hw).symm)

/-- An answer about a press that is not DISABLED, which is then held as its table says. -/
theorem Alarms.answered_guards (hp : a.Shown → a.Enabled p) (hheld : a.Holding → held = tableHolds t) :
    a.Guards (a.answered p held t) where
  holding h := Alarms.wrote_holding (hheld h) h
  shown h := Alarms.answered_shown (hp h) h
  enabled _ h := (Alarms.wrote_enabled (held := held) (t := t)).mpr h

end

/-! ### What holds and patterns read of a table -/

/-- A press with an entry is not DISABLED. -/
theorem Alarms.Shown.enabled (h : a.Shown) {p : Fin 16} {i : Fin 11} {e : AlertEntry} (he : (a.table p)[i] = some e) :
    a.Enabled p := by
  refine Bool.eq_false_iff.mpr fun hdis => ?_
  obtain ⟨hempty, -⟩ := h.resting p hdis
  rw [hempty] at he
  exact absurd he (by simp [emptyTable])

end

/-- What holds and patterns read of an entry. -/
def AlertEntry.shown (e : AlertEntry) : Bool × AlertMode := (e.acked, e.mode)

/-- A test of entries that reads no more of them than `g` does. -/
theorem any_congr_map {β : Type} (g : AlertEntry → β) (f : β → Bool) {l l' : List AlertEntry}
    (h : l.map g = l'.map g) : l.any (f ∘ g) = l'.any (f ∘ g) := by
  rw [← List.any_map, h, List.any_map]

theorem patternOf_congr {l l' : List AlertEntry} (h : l.map AlertEntry.shown = l'.map AlertEntry.shown) :
    patternOf l = patternOf l' := by
  have hany (m : AlertMode) : l.any (AlertEntry.unackedIn m) = l'.any (AlertEntry.unackedIn m) :=
    any_congr_map AlertEntry.shown (fun x => !x.1 && decide (x.2 = m)) h
  have hempty : l.isEmpty = l'.isEmpty := by
    rw [← List.isEmpty_map (f := AlertEntry.shown), h, List.isEmpty_map]
  rw [patternOf, patternOf, hany, hany, hempty]

/-- Whether an entry holds its press is read of its mode. -/
theorem tableHolds_congr {t t' : Vector (Option AlertEntry) 11}
    (h : (tableEntries t).map AlertEntry.mode = (tableEntries t').map AlertEntry.mode) :
    tableHolds t = tableHolds t' :=
  any_congr_map AlertEntry.mode (fun | .latched => true | .retry => true | _ => false) h

/-- An entry written over one of which `g` reads the same. -/
theorem tableEntries_set {β : Type} (g : AlertEntry → β) {t : Vector (Option AlertEntry) 11} {i : Fin 11}
    {e e' : AlertEntry} (he : t[i] = some e) (h : g e' = g e) :
    (tableEntries (t.set i (some e'))).map g = (tableEntries t).map g := by
  have hread (u : Vector (Option AlertEntry) 11) :
      (tableEntries u).map g = (u.toList.map (Option.map g)).filterMap id := by
    simp only [tableEntries, List.map_filterMap, List.filterMap_map]
    rfl
  have hplace : (t.toList.map (Option.map g))[i.val]'(by simp) = some (g e) := by
    rw [List.getElem_map]
    exact congrArg _ he
  rw [hread, hread, Vector.toList_set, List.map_set, Option.map_some, h, ← hplace, List.set_getElem_self]

/-- An entry written where there was none adds its hold to the table's. -/
theorem tableHolds_set_new {t : Vector (Option AlertEntry) 11} {i : Fin 11} (e : AlertEntry) (ht : t[i] = none) :
    tableHolds (t.set i (some e)) = (e.holds || tableHolds t) := by
  rw [Bool.eq_iff_iff, Bool.or_eq_true, tableHolds_iff, tableHolds_iff]
  constructor
  · rintro ⟨j, x, hx, hh⟩
    by_cases hj : j = i
    · subst hj
      rw [getElem_set_same] at hx
      exact .inl (Option.some.inj hx ▸ hh)
    · rw [getElem_set_other _ hj] at hx
      exact .inr ⟨j, x, hx, hh⟩
  · rintro (hh | ⟨j, x, hx, hh⟩)
    · exact ⟨i, e, getElem_set_same .., hh⟩
    · have hj : j ≠ i := by
        rintro rfl
        exact absurd (hx.symm.trans ht) nofun
      exact ⟨j, x, (getElem_set_other _ hj _).trans hx, hh⟩

/-- A table written that shows what it did, no pattern being derived again. -/
theorem Alarms.wrote_guards {a : Alarms} {p : Fin 16} {t : Vector (Option AlertEntry) 11}
    (hp : a.Shown → a.Enabled p)
    (h : (tableEntries t).map AlertEntry.shown = (tableEntries (a.table p)).map AlertEntry.shown) :
    a.Guards (a.wrote p (a.press p).held t) where
  holding ha := by
    refine Alarms.wrote_holding ((ha p).trans (tableHolds_congr ?_)) ha
    have hmode : AlertEntry.mode = Prod.snd ∘ AlertEntry.shown := rfl
    rw [hmode, ← List.map_map, ← List.map_map, h]
  shown ha := by
    refine ⟨Alarms.wrote_resting (hp ha) ha.resting, fun z => (ha.pattern z).trans (patternOf_congr ?_)⟩
    rw [Alarms.entries, Alarms.entries, List.map_flatMap, List.map_flatMap]
    refine List.flatMap_congr fun q _ => ?_
    rw [Alarms.share, Alarms.share, a.wrote_zone q]
    by_cases hq : q = p
    · subst hq
      rw [Alarms.wrote_table_self]
      split
      · exact h.symm
      · rfl
    · rw [Alarms.wrote_table_other hq]
  enabled _ := Alarms.wrote_enabled.mpr

/-- Presses at rest, empty tables and patterns OFF meet both laws (R170, R187). -/
theorem Alarms.cleared_laws {a : Alarms} (hheld : ∀ p, (a.press p).held = false)
    (hwatch : ∀ p, (a.press p).watch = none) (htable : ∀ p, a.table p = emptyTable) (hpattern : ∀ z, a.pattern z = .off) : a.Holding ∧ a.Shown := by
  refine ⟨fun p => ?_, fun p _ => ⟨htable p, hwatch p⟩, fun z => ?_⟩
  · rw [hheld, htable, tableHolds_emptyTable]
  · have hnone : a.entries z = [] := by
      refine List.flatMap_eq_nil_iff.mpr fun p _ => ?_
      rw [Alarms.share, htable, tableEntries_emptyTable, ite_self]
    rw [hpattern, hnone]
    rfl

end Sys2Proof.Machine
end

section
/-! What the engines, the links and the job table do to holds, tables and patterns: nearly all leave them as they are,
said as equations on `State.alarms`; a press that loses its job has its stall watch gone. -/

namespace Sys2Proof.Machine

section
variable (s : State)

/-! ### Operations that leave them -/

theorem State.alarms_of {s t : State} (hpress : ∀ q : Fin 16, t.presses[q].alarm = s.presses[q].alarm)
    (hau : t.au = s.au) (hzones : t.zones = s.zones) : t.alarms = s.alarms := by
  simp only [State.alarms, funext hpress, hau, hzones]

@[simp] theorem State.mapMlc_alarms (f : Mlc → Mlc) : (s.mapMlc f).alarms = s.alarms := rfl
@[simp] theorem State.mapSlot_alarms (i : Fin 64) (f : Slot → Slot) : (s.mapSlot i f).alarms = s.alarms := rfl
@[simp] theorem State.mapJob_alarms (i : Fin 64) (f : Job → Job) : (s.mapJob i f).alarms = s.alarms := rfl
@[simp] theorem State.mapSmm_alarms (f : Smm → Smm) : (s.mapSmm f).alarms = s.alarms := rfl
@[simp] theorem State.mapRu_alarms (f : Ru → Ru) : (s.mapRu f).alarms = s.alarms := rfl
@[simp] theorem State.mapMu_alarms (f : Mu → Mu) : (s.mapMu f).alarms = s.alarms := rfl
@[simp] theorem State.mapAccount_alarms (a : Fin 256) (f : Account → Account) :
    (s.mapAccount a f).alarms = s.alarms := rfl
@[simp] theorem State.mapMeter_alarms (p : Fin 16) (f : Meter → Meter) : (s.mapMeter p f).alarms = s.alarms := rfl
@[simp] theorem State.mapStore_alarms (f : Store → Store) : (s.mapStore f).alarms = s.alarms := rfl
@[simp] theorem State.notice_alarms (k : NoticeKind) (a b : Nat) (d : List Byte) :
    (s.notice k a b d).alarms = s.alarms := rfl
@[simp] theorem State.dropRequest_alarms : s.dropRequest.alarms = s.alarms := rfl
@[simp] theorem State.markPending_alarms (p : Fin 16) : (s.markPending p).alarms = s.alarms := rfl
@[simp] theorem State.settle_alarms (a : Fin 256) (c n : Nat) : (s.settle a c n).alarms = s.alarms := rfl

/-- An operation that leaves them does so any number of times. -/
theorem foldl_alarms {α : Type} (f : State → α → State) (h : ∀ s x, (f s x).alarms = s.alarms) (l : List α)
    (s : State) : (l.foldl f s).alarms = s.alarms := by
  induction l generalizing s with
  | nil => rfl
  | cons x l ih => exact (ih _).trans (h s x)

@[simp] theorem State.markAll_alarms (l : List (Fin 16)) : (s.markAll l).alarms = s.alarms :=
  foldl_alarms (fun s p => s.markPending p) (fun _ _ => rfl) l s

/-- A press written. -/
theorem State.mapPress_alarms (p : Fin 16) (f : Press → Press) :
    (s.mapPress p f).alarms = s.alarms.withPress p (f s.presses[p]).alarm := by
  have hpress : (s.mapPress p f).alarms.press = Function.update s.alarms.press p (f s.presses[p]).alarm := by
    funext q
    by_cases hq : q = p
    · subst hq
      rw [Function.update_self]
      exact congrArg Press.alarm (s.mapPress_self q f)
    · rw [Function.update_of_ne hq]
      exact congrArg Press.alarm (s.mapPress_other hq f)
  rw [Alarms.withPress, ← hpress]
  rfl

theorem State.mapPress_alarms_same {p : Fin 16} {f : Press → Press} (h : (f s.presses[p]).alarm = s.presses[p].alarm) :
    (s.mapPress p f).alarms = s.alarms := by
  rw [State.mapPress_alarms, h]
  exact s.alarms.withPress_same p

@[simp] theorem State.send_alarms (p : Fin 16) (f : FeedFrame) : (s.send p f).alarms = s.alarms :=
  s.mapPress_alarms_same rfl
@[simp] theorem State.sendData_alarms (p : Fin 16) (t : Transmission) (n : Nat) :
    (s.sendData p t n).alarms = s.alarms := s.mapPress_alarms_same rfl
@[simp] theorem State.refresh_alarms (p : Fin 16) : (s.refresh p).alarms = s.alarms := s.mapPress_alarms_same rfl
@[simp] theorem State.probe_alarms (p : Fin 16) : (s.probe p).alarms = s.alarms :=
  ((s.send p .probe).mapPress_alarms_same rfl).trans (s.send_alarms p .probe)

@[simp] theorem State.advanceTx_alarms (p : Fin 16) : (s.advanceTx p).alarms = s.alarms := by
  unfold State.advanceTx
  split
  · next t _ =>
    obtain ⟨c, hc⟩ := (s.anyUpTo_spec (s.dataLeft t)).2
    dsimp only
    rw [State.sendData_alarms, hc]
    rfl
  · rfl

@[simp] theorem State.sendBetween_alarms (p : Fin 16) (f : FeedFrame) : (s.sendBetween p f).alarms = s.alarms :=
  (State.send_alarms _ p f).trans (s.advanceTx_alarms p)

@[simp] theorem State.stopTx_alarms (p : Fin 16) : (s.stopTx p).alarms = s.alarms :=
  ((s.advanceTx p).mapPress_alarms_same rfl).trans (s.advanceTx_alarms p)

@[simp] theorem State.advanceWrite_alarms : s.advanceWrite.alarms = s.alarms := by
  obtain ⟨_, _, _, -, -, e⟩ | ⟨-, e⟩ := s.advanceWrite_spec
  · rw [e]; rfl
  · rw [e]

@[simp] theorem State.refreshAll_alarms : s.refreshAll.alarms = s.alarms :=
  foldl_alarms (fun s p => s.refresh p) (fun s p => s.refresh_alarms p) _ s

@[simp] theorem State.quiesceTest_alarms : s.quiesceTest.alarms = s.alarms := by
  unfold State.quiesceTest
  split <;> simp

@[simp] theorem State.release_alarms (a : Fin 256) (c : Nat) : (s.release a c).alarms = s.alarms := by
  unfold State.release
  dsimp only
  split <;> rfl

@[simp] theorem State.riseIf_alarms (due : Bool) (n : Fin 256) : (s.riseIf due n).alarms = s.alarms := by
  unfold State.riseIf
  split <;> rfl

@[simp] theorem State.countDelivery_alarms (p : Fin 16) (e : PathEntry) : (s.countDelivery p e).alarms = s.alarms := by
  unfold State.countDelivery State.checkpoint
  dsimp only
  split <;> rfl

@[simp] theorem State.countSpoiled_alarms (p : Fin 16) : (s.countSpoiled p).alarms = s.alarms := rfl

/-! ### Dispatch and binding (R88 to R96) -/

@[simp] theorem State.opportunity_alarms (p : Fin 16) : (s.opportunity p).alarms = s.alarms := by
  have hacted := s.opportunity_acted p
  obtain ⟨l, hfed⟩ := s.opportunity_fed p
  obtain ⟨_, _, _, _, _, _, _, -, hpresses⟩ := hfed.presses
  refine State.alarms_of (fun q => ?_) hacted.au hacted.zones
  by_cases hq : q = p
  · subst hq
    simp only [hpresses, getElem_set_same]
    rfl
  · simp only [hpresses, getElem_set_other _ hq]

/-- Only an ONLINE press binds, and such a press may have a stall watch or none. -/
@[simp] theorem State.bindEvent_alarms (p : Fin 16) : (s.bindEvent p).alarms = s.alarms := by
  unfold State.bindEvent
  split
  · next hmay =>
    obtain ⟨hready, -⟩ := (Press.mayBind_iff ..).mp hmay
    have hon : s.presses[p].link ≠ .disabled := by
      intro hdis
      rw [Press.ready, hdis] at hready
      exact Bool.noConfusion hready
    split
    · next c h j _ =>
      have hacted := s.takeJob_acted p c h j
      rw [State.bind_eq, State.opportunity_alarms]
      refine State.alarms_of (fun q => ?_) hacted.au hacted.zones
      by_cases hq : q = p
      · subst hq
        rw [State.takeJob_press, Press.alarm, Press.alarm, if_neg hon, if_neg hon]
      · rw [hacted.presses q fun hl => hq (List.mem_singleton.mp hl)]
    · rfl
  · rfl

@[simp] theorem State.engineToRun_alarms (p : Fin 16) : (s.engineToRun p).alarms = s.alarms := by
  unfold State.engineToRun
  split <;> simp

@[simp] theorem State.toRun_alarms : s.toRun.alarms = s.alarms :=
  (foldl_alarms State.engineToRun (fun s p => s.engineToRun_alarms p) _ _).trans rfl

@[simp] theorem State.opportunityIfStill_alarms (p : Fin 16) (h : Option Handle) :
    (s.opportunityIfStill p h).alarms = s.alarms := by
  unfold State.opportunityIfStill
  split <;> simp

@[simp] theorem State.opportunityOf_alarms (j : Job) : (s.opportunityOf j).alarms = s.alarms := by
  unfold State.opportunityOf
  split <;> simp

/-- A press that loses its job has no stall watch any more (R90). -/
theorem State.unbind_guards (p : Fin 16) : s.alarms.Guards (s.unbind p).alarms := by
  rw [State.unbind, State.bindEvent_alarms, State.mapPress_alarms]
  exact Alarms.withPress_guards rfl rfl fun hdis => ⟨hdis, fun _ => ite_self _⟩

/-! ### The ends of jobs (R14 to R18) -/

@[simp] theorem State.abandonOpen_alarms (i : Fin 64) : (s.abandonOpen i).alarms = s.alarms := by
  unfold State.abandonOpen
  split <;> simp

@[simp] theorem State.minimumStep_alarms (i : Fin 64) (r : EndReason) (j : Job) :
    (s.minimumStep i r j).alarms = s.alarms := by
  unfold State.minimumStep
  split <;> rfl

@[simp] theorem State.jobNotice_alarms (i : Fin 64) (r : EndReason) : (s.jobNotice i r).alarms = s.alarms := by
  unfold State.jobNotice
  split <;> simp

theorem State.unbindStep_guards (i : Fin 64) (j : Job) : s.alarms.Guards (s.unbindStep i j).alarms := by
  unfold State.unbindStep
  split
  · exact State.unbind_guards (s.mapJob i _) _
  · exact .refl _

theorem State.enterFinal_guards (i : Fin 64) (r : EndReason) (x : Option CopySheet) :
    s.alarms.Guards (s.enterFinal i r x).alarms := by
  unfold State.enterFinal
  split
  · exact .refl _
  · dsimp only
    rw [State.jobNotice_alarms]
    exact .trans (.of_eq (by simp)) (State.unbindStep_guards _ i _)

theorem State.endingTest_guards (i : Fin 64) : s.alarms.Guards (s.endingTest i).alarms := by
  unfold State.endingTest
  split
  · split
    · split <;> exact s.enterFinal_guards ..
    · exact .refl _
  · exact .refl _

theorem State.doneTest_guards (i : Fin 64) : s.alarms.Guards (s.doneTest i).alarms := by
  unfold State.doneTest
  split
  · split
    · exact s.enterFinal_guards ..
    · exact .refl _
  · exact .refl _

theorem State.testEnd_guards (i : Fin 64) : s.alarms.Guards (s.testEnd i).alarms := by
  unfold State.testEnd
  split
  · split
    · exact s.doneTest_guards i
    · exact s.endingTest_guards i
    · exact .refl _
  · exact .refl _

theorem State.reportDelivery_guards (e : PathEntry) : s.alarms.Guards (s.reportDelivery e).alarms := by
  unfold State.reportDelivery
  split
  · exact State.testEnd_guards (s.mapJob _ _) _
  · exact .refl _

theorem State.reportLoss_guards (e : PathEntry) : s.alarms.Guards (s.reportLoss e).alarms := by
  unfold State.reportLoss
  split
  · exact .refl _
  · dsimp only
    split
    · exact State.testEnd_guards ((s.mapJob _ _).mapJob _ _) _
    · exact .trans (.of_eq (by simp)) (State.testEnd_guards _ _)
    · exact State.testEnd_guards (s.mapJob _ _) _

end

end Sys2Proof.Machine
end

section
/-! What the alert unit and the zones do to holds, tables and patterns (chapters 9 and 10): each answer of the alert
unit writes one table and derives one pattern, and a removal, an acknowledgement and a press that moves or is disabled
derive the patterns that they touch; the resets clear them all. -/

namespace Sys2Proof.Machine

section
variable (s : State)

/-! ### Entries written (R169, R187) -/

/-- The table of a press written. -/
def State.setTable (p : Fin 16) (t : Vector (Option AlertEntry) 11) (s : State) : State :=
  s.mapAu fun au => { au with tables := au.tables.set p t }

theorem State.setTable_alarms (p : Fin 16) (t : Vector (Option AlertEntry) 11) :
    (s.setTable p t).alarms = s.alarms.wrote p s.presses[p].held t := by
  have htable : (s.setTable p t).alarms.table = Function.update s.alarms.table p t := by
    funext q
    by_cases hq : q = p
    · subst hq
      rw [Function.update_self]
      exact getElem_set_same ..
    · rw [Function.update_of_ne hq]
      exact getElem_set_other _ hq _
  have hpress : s.alarms.withPress p { s.alarms.press p with held := s.presses[p].held } = s.alarms :=
    s.alarms.withPress_same p
  rw [Alarms.wrote, hpress, ← htable]
  rfl

@[simp] theorem State.setEntry_alarms (p : Fin 16) (k : AlertKind) (e : Option AlertEntry) :
    (s.setEntry p k e).alarms = s.alarms.wrote p s.presses[p].held (s.au.tables[p].set k.code e) :=
  s.setTable_alarms p _

/-- A zone written that shows what it did. -/
theorem State.mapZone_alarms_same {z : Fin 4} {f : Zone → Zone} (h : (f s.zones[z]).pattern = s.zones[z].pattern) :
    (s.mapZone z f).alarms = s.alarms := by
  have hpattern : (s.mapZone z f).alarms.pattern = s.alarms.pattern := by
    funext w
    refine (congrArg Zone.pattern (s.mapZone_get z w f)).trans ?_
    split
    · next hw => exact hw ▸ h
    · rfl
  exact congrArg (Alarms.mk s.alarms.press s.alarms.table) hpattern

@[simp] theorem State.derivePattern_alarms (z : Fin 4) : (s.derivePattern z).alarms = s.alarms.derived z := by
  have hderive (now : Time) (pat : Pattern) (x : Zone) : (x.derive now pat).pattern = pat := by
    unfold Zone.derive
    split
    · assumption
    · rfl
  have hpattern : (s.derivePattern z).alarms.pattern =
      Function.update s.alarms.pattern z (patternOf (s.alarms.entries z)) := by
    funext w
    refine (congrArg Zone.pattern (s.derivePattern_get z w)).trans ?_
    by_cases hw : w = z
    · subst hw
      rw [if_pos rfl, Function.update_self, hderive, s.alarms_entries]
    · rw [if_neg (Ne.symm hw), Function.update_of_ne hw]
      rfl
  rw [Alarms.derived, ← hpattern]
  rfl

@[simp] theorem State.handToZone_alarms (p : Fin 16) :
    (s.handToZone p).alarms = s.alarms.derived (s.alarms.press p).zone := s.derivePattern_alarms _

/-- A table written and handed to its zone. -/
theorem State.setTable_handed (p : Fin 16) (t : Vector (Option AlertEntry) 11) :
    ((s.setTable p t).handToZone p).alarms = s.alarms.answered p s.presses[p].held t := by
  rw [State.handToZone_alarms, State.setTable_alarms, Alarms.wrote_press_self]
  rfl

theorem State.setEntry_handed (p : Fin 16) (k : AlertKind) (e : Option AlertEntry) :
    ((s.setEntry p k e).handToZone p).alarms =
      s.alarms.answered p s.presses[p].held (s.au.tables[p].set k.code e) := s.setTable_handed p _

/-- The press is held from then on (R106). -/
theorem State.holdBegun_alarms (p : Fin 16) :
    (s.holdBegun p).alarms = s.alarms.wrote p true s.au.tables[p] := by
  have htable : Function.update s.alarms.table p s.au.tables[p] = s.alarms.table := Function.update_eq_self p _
  rw [State.holdBegun, State.refresh_alarms, State.markPending_alarms, State.sendBetween_alarms,
    State.mapPress_alarms, Alarms.wrote, htable]
  rfl

/-! ### Raises and condition ends (R171 to R175) -/

theorem AlertEntry.ended_shown (now : Time) (e : AlertEntry) : (e.ended now).shown = e.shown := by
  unfold AlertEntry.ended
  repeat' split
  all_goals rfl

theorem AlertEntry.settled_mode (k : AlertKind) (now : Time) (e : AlertEntry) : (e.settled k now).mode = e.mode := by
  unfold AlertEntry.settled
  split
  · exact congrArg Prod.snd (e.ended_shown now)
  · rfl

theorem AlertEntry.holds_congr {e e' : AlertEntry} (h : e'.mode = e.mode) : e'.holds = e.holds := by
  rw [AlertEntry.holds, AlertEntry.holds, h]

/-- The state with a new entry and the hold that it begins, before its zone shows it (R171). -/
def State.entered (p : Fin 16) (k : AlertKind) (e : AlertEntry) (s : State) : State :=
  if e.holds && !tableHolds s.au.tables[p] then (s.setEntry p k (some e)).holdBegun p else s.setEntry p k (some e)

theorem State.entered_tb (p : Fin 16) (k : AlertKind) (e : AlertEntry) : (s.entered p k e).tb = s.tb := by
  unfold State.entered
  split
  · exact (State.holdBegun_sameWork p (s.setEntry p k (some e))).tb
  · rfl

/-- The press is held if it was, or if the entry is the first that holds it. -/
theorem State.entered_alarms (p : Fin 16) (k : AlertKind) (e : AlertEntry) : (s.entered p k e).alarms =
    s.alarms.wrote p (s.presses[p].held || e.holds && !tableHolds s.au.tables[p])
      (s.au.tables[p].set k.code (some e)) := by
  unfold State.entered
  split
  · next hbegins =>
    rw [State.holdBegun_alarms, State.setEntry_alarms, Alarms.wrote_wrote, hbegins, Bool.or_true]
    exact congrArg (Alarms.wrote p true · s.alarms) (getElem_set_same ..)
  · next hno =>
    rw [State.setEntry_alarms, Bool.eq_false_iff.mpr hno, Bool.or_false]

theorem State.raiseNew_alarms (p : Fin 16) (k : AlertKind) (e : AlertEntry) : (s.raiseNew p k e).alarms =
    s.alarms.answered p (s.presses[p].held || e.holds && !tableHolds s.au.tables[p])
      (s.au.tables[p].set k.code (some (e.settled k s.tb))) := by
  have hu := s.entered_alarms p k e
  have hheld : (s.entered p k e).presses[p].held =
      (s.presses[p].held || e.holds && !tableHolds s.au.tables[p]) := by
    have hpress := congrArg (fun a => (a.press p).held) hu
    rwa [Alarms.wrote_press_self] at hpress
  have htable : (s.entered p k e).au.tables[p] = s.au.tables[p].set k.code (some e) :=
    (congrArg (Alarms.table · p) hu).trans Alarms.wrote_table_self
  have hraise : (s.raiseNew p k e).alarms = (((s.entered p k e).setEntry p k
      (some (e.settled k (s.entered p k e).tb))).handToZone p).alarms := rfl
  rw [hraise, State.setEntry_handed, htable, hheld, hu, s.entered_tb, Vector.set_set, Alarms.answered,
    Alarms.wrote_wrote, Alarms.wrote_press_self]
  rfl

/-- A raise that creates an entry leaves its press held exactly where its table holds it. -/
theorem State.raiseNew_guards {p : Fin 16} {k : AlertKind} (e : AlertEntry) (hnone : s.entry p k = none)
    (hp : s.alarms.Shown → s.alarms.Enabled p) : s.alarms.Guards (s.raiseNew p k e).alarms := by
  rw [State.raiseNew_alarms]
  refine Alarms.answered_guards hp fun h => ?_
  rw [tableHolds_set_new _ hnone, AlertEntry.holds_congr (AlertEntry.settled_mode ..),
    show s.presses[p].held = tableHolds s.au.tables[p] from h p]
  cases e.holds <;> cases tableHolds s.au.tables[p] <;> rfl

/-- A raise again leaves the mode of the entry, and so the hold (R172). -/
theorem State.raiseAgain_guards {p : Fin 16} {k : AlertKind} {e : AlertEntry} (d : Byte) (he : s.entry p k = some e) :
    s.alarms.Guards (s.raiseAgain p k e d).alarms := by
  have hraise : (s.raiseAgain p k e d).alarms = s.alarms.answered p s.presses[p].held
      (s.au.tables[p].set k.code (some ((e.reraise d).settled k s.tb))) := s.setEntry_handed p k _
  rw [hraise]
  refine Alarms.answered_guards (fun h => h.enabled he) fun h => (h p).trans (tableHolds_congr ?_)
  exact (tableEntries_set AlertEntry.mode he (AlertEntry.settled_mode k s.tb (e.reraise d))).symm

/-- A raise on a press that is not DISABLED. -/
theorem State.raise_guards {p : Fin 16} (k : AlertKind) (d : Byte) (hp : s.alarms.Shown → s.alarms.Enabled p) :
    s.alarms.Guards (s.raise p k d).1.alarms := by
  unfold State.raise
  split
  · exact .refl _
  · split
    · next hnone => exact s.raiseNew_guards _ hnone hp
    · next e he => exact s.raiseAgain_guards d he

theorem State.alert_guards {p : Fin 16} (k : AlertKind) (d : Byte) (hp : s.alarms.Enabled p) :
    s.alarms.Guards (s.alert p k d).alarms := s.raise_guards k d fun _ => hp

theorem State.protocol_guards {p : Fin 16} (e : ProtocolError) (hp : s.alarms.Enabled p) :
    s.alarms.Guards (s.protocol p e).alarms := s.raise_guards _ _ fun _ => hp

/-- The end of a condition leaves the mode of the entry and its acknowledgement (R174). -/
theorem State.conditionEnd_guards (p : Fin 16) (k : AlertKind) (d : Option Byte) :
    s.alarms.Guards (s.conditionEnd p k d).alarms := by
  unfold State.conditionEnd
  split
  · exact .refl _
  · next e he =>
    have hshown : ((e.withDetail d).ended s.tb).shown = e.shown := AlertEntry.ended_shown ..
    have hp (h : s.alarms.Shown) : s.alarms.Enabled p := h.enabled he
    have hmoved : s.alarms.Guards
        ((s.setEntry p k (some ((e.withDetail d).ended s.tb))).handToZone p).alarms := by
      rw [State.setEntry_handed]
      refine Alarms.answered_guards hp fun h => (h p).trans (tableHolds_congr ?_)
      exact (tableEntries_set AlertEntry.mode he (congrArg Prod.snd hshown)).symm
    dsimp only
    split
    · rw [State.setEntry_alarms]
      exact Alarms.wrote_guards hp (tableEntries_set AlertEntry.shown he hshown)
    · split <;> exact hmoved

/-! ### The stall watch (R102, R103) -/

theorem State.raiseStall_guards {p : Fin 16} (tag : Half) (hp : s.alarms.Shown → s.alarms.Enabled p) :
    s.alarms.Guards (s.raiseStall p tag).alarms := by
  have hraise := s.raise_guards .stall 0 hp
  unfold State.raiseStall
  dsimp only
  split
  · refine hraise.trans ?_
    rw [State.mapPress_alarms]
    refine Alarms.withPress_guards rfl rfl fun hdis => ⟨hdis, fun hnone => ?_⟩
    have hoff : (s.raise p .stall 0).1.presses[p].link = .disabled := of_decide_eq_true hdis
    have hnone : (if (s.raise p .stall 0).1.presses[p].link = .disabled then (s.raise p .stall 0).1.presses[p].watch
      else none) = none := hnone
    rw [if_pos hoff] at hnone
    simp only [Press.alarm, hnone, Option.map_none, ite_self]
  · rwa [State.mapPress_alarms_same _ rfl]

/-- The watch of a press that is not DISABLED may be set to any entry of its path. -/
theorem State.rewatched_alarms {p : Fin 16} (f : Press → Press) (hp : s.alarms.Enabled p)
    (hf : ∀ pr, (f pr).held = pr.held ∧ (f pr).profile = pr.profile ∧ (f pr).link = pr.link) :
    (s.mapPress p f).alarms = s.alarms := by
  obtain ⟨hheld, hprofile, hlink⟩ := hf s.presses[p]
  have hon : s.presses[p].link ≠ .disabled := State.enabled_iff.mp hp
  refine s.mapPress_alarms_same ?_
  rw [Press.alarm, Press.alarm, hheld, hprofile, hlink, if_neg hon, if_neg hon]

/-- The state in which the STALL condition of an entry that has left has ended, and the watch has moved on (R103). -/
def State.watchMoved (p : Fin 16) (wasStalled : Bool) (s : State) : State :=
  State.mapPress p Press.rewatch
    (if wasStalled then (s.conditionEnd p .stall none).mapPress p fun pr => { pr with stalledTag := none } else s)

theorem State.stallAfterLeave_eq (p : Fin 16) (w : Bool) : s.stallAfterLeave p w =
    match (s.watchMoved p w).stallDue p with
    | some tag => (s.watchMoved p w).raiseStall p tag
    | none => s.watchMoved p w := rfl

theorem State.watchMoved_guards {p : Fin 16} (w : Bool) (hp : s.alarms.Enabled p) :
    s.alarms.Guards (s.watchMoved p w).alarms := by
  have hrewatch (u : State) (hu : s.alarms.Guards u.alarms) : s.alarms.Guards (u.mapPress p Press.rewatch).alarms :=
    u.rewatched_alarms Press.rewatch (hu.enabled p hp) (fun _ => ⟨rfl, rfl, rfl⟩) ▸ hu
  refine hrewatch _ ?_
  split
  · rw [State.mapPress_alarms_same _ rfl]
    exact s.conditionEnd_guards p .stall none
  · exact .refl _

theorem State.stallAfterLeave_guards {p : Fin 16} (w : Bool) (hp : s.alarms.Enabled p) :
    s.alarms.Guards (s.stallAfterLeave p w).alarms := by
  have hmoved := s.watchMoved_guards w hp
  rw [State.stallAfterLeave_eq]
  split
  · exact hmoved.trans (State.raiseStall_guards _ _ fun _ => hmoved.enabled p hp)
  · exact hmoved

/-! ### Deliveries and losses (R98 to R101) -/

theorem State.deliverEntry_guards {p : Fin 16} (e : PathEntry) (hp : s.alarms.Enabled p) :
    s.alarms.Guards (s.deliverEntry p e).alarms := by
  unfold State.deliverEntry
  extract_lets wasStalled s1 s2 s3 s4 s5
  have h4 : s4.alarms = s.alarms := by
    have h1 : s1.alarms = s.alarms := s.mapPress_alarms_same rfl
    have h2 : s2.alarms = s1.alarms := by
      simp only [s2]
      split <;> simp
    simp only [s4, s3, State.countDelivery_alarms, State.settle_alarms, h2, h1]
  have h5 : s.alarms.Guards s5.alarms := h4 ▸ s4.reportDelivery_guards e
  exact h5.trans (s5.stallAfterLeave_guards wasStalled (h5.enabled p hp))

theorem State.loseEntry_guards {p : Fin 16} (e : PathEntry) (hp : s.alarms.Enabled p) :
    s.alarms.Guards (s.loseEntry p e).alarms := by
  unfold State.loseEntry
  extract_lets wasStalled s1 s2 s3 s4 s5
  have h4 : s4.alarms = s.alarms := by
    have h1 : s1.alarms = s.alarms := s.mapPress_alarms_same rfl
    have h2 : s2.alarms = s1.alarms := by
      simp only [s2]
      split <;> simp
    simp only [s4, s3, State.countSpoiled_alarms, State.release_alarms, h2, h1]
  have h5 : s.alarms.Guards s5.alarms := h4 ▸ s4.reportLoss_guards e
  exact h5.trans (s5.stallAfterLeave_guards wasStalled (h5.enabled p hp))

theorem State.loseAll_guards {p : Fin 16} (l : List PathEntry) (hp : s.alarms.Enabled p) :
    s.alarms.Guards (s.loseAll p l).alarms := by
  unfold State.loseAll
  induction l generalizing s with
  | nil => exact .refl _
  | cons e l ih =>
    have hfirst := s.loseEntry_guards e hp
    exact hfirst.trans (ih _ (hfirst.enabled p hp))

/-! ### The removal of entries and the end of a hold (R107, R179) -/

/-- The press is no longer held from then on. -/
theorem State.holdEnded_alarms (p : Fin 16) : (s.holdEnded p).alarms =
    s.alarms.withPress p { s.alarms.press p with held := false } := by
  obtain ⟨choices, tx, l, heq, -⟩ := s.holdEnded_eq p
  rw [heq, State.engineToRun_alarms]
  exact s.mapPress_alarms p fun pr => { pr with held := false, tx, out := pr.out ++ l ++ [.resume] }

/-- `b` is `a` after entries have left the table of press `p`, which is still held as it was. -/
structure Alarms.Stripped (p : Fin 16) (t : Vector (Option AlertEntry) 11) (a b : Alarms) : Prop where
  press : b.press = a.press
  table : b.table = Function.update a.table p t
  shown : a.Shown → b.Shown

theorem State.removeEntry_stripped (p : Fin 16) (reason : RemovalReason) (held : Bool) (k : AlertKind) :
    s.alarms.Stripped p (s.au.tables[p].set k.code none) (s.removeEntry p reason held k).alarms := by
  unfold State.removeEntry
  split
  · next hnone =>
    have hsame : s.au.tables[p].set k.code none = s.alarms.table p := by
      have hentry : s.au.tables[p][k.code] = none := hnone
      conv_lhs => rw [← hentry]
      exact Vector.set_getElem_self _
    exact ⟨rfl, by rw [hsame, Function.update_eq_self], id⟩
  · next e he =>
    rw [State.notice_alarms, State.setEntry_handed]
    have hpress : (s.alarms.withPress p (s.alarms.press p)).press = s.alarms.press :=
      congrArg Alarms.press (s.alarms.withPress_same p)
    exact ⟨hpress, rfl, fun h => Alarms.answered_shown (h.enabled he) h⟩

theorem State.foldl_removeEntry_stripped (p : Fin 16) (reason : RemovalReason) (held : Bool) (l : List AlertKind) :
    s.alarms.Stripped p (tableWithout s.au.tables[p] l) (l.foldl (State.removeEntry p reason held) s).alarms := by
  induction l generalizing s with
  | nil => exact ⟨rfl, (Function.update_eq_self p _).symm, id⟩
  | cons k l ih =>
    have hfirst := s.removeEntry_stripped p reason held k
    have hrest := ih (s.removeEntry p reason held k)
    have htable : (s.removeEntry p reason held k).au.tables[p] = s.au.tables[p].set k.code none :=
      (congrFun hfirst.table p).trans (Function.update_self ..)
    rw [htable] at hrest
    refine ⟨hrest.press.trans hfirst.press, ?_, hrest.shown ∘ hfirst.shown⟩
    rw [List.foldl_cons, hrest.table, hfirst.table, Function.update_idem]
    rfl

/-- The removals of one event: the hold ends where the last holding entry has gone. -/
theorem State.removeEntries_guards (p : Fin 16) (reason : RemovalReason) (l : List AlertKind) :
    s.alarms.Guards (s.removeEntries p reason l).alarms := by
  have hstripped := s.foldl_removeEntry_stripped p reason (tableHolds (tableWithout s.au.tables[p] l)) l
  generalize hu : l.foldl (State.removeEntry p reason (tableHolds (tableWithout s.au.tables[p] l))) s = u at hstripped
  have htable : u.alarms.table p = tableWithout s.au.tables[p] l :=
    (congrFun hstripped.table p).trans (Function.update_self ..)
  have hother (h : s.alarms.Holding) (q : Fin 16) (hq : q ≠ p) :
      (u.alarms.press q).held = tableHolds (u.alarms.table q) := by
    rw [hstripped.press, hstripped.table, Function.update_of_ne hq]
    exact h q
  have henabled (q : Fin 16) (h : s.alarms.Enabled q) : u.alarms.Enabled q := by
    rwa [Alarms.Enabled, hstripped.press]
  by_cases hends : tableHolds s.au.tables[p] = true ∧ tableHolds (tableWithout s.au.tables[p] l) = false
  · obtain ⟨hbefore, hafter⟩ := hends
    have hremove : s.removeEntries p reason l = u.holdEnded p :=
      (if_pos (by rw [hbefore, hafter]; rfl)).trans (congrArg (State.holdEnded p) hu)
    rw [hremove, State.holdEnded_alarms]
    exact {
      holding := fun h => Alarms.withPress_holding (by rw [htable, hafter]) (hother h)
      shown := fun h => Alarms.withPress_shown rfl ((hstripped.shown h).resting p) (hstripped.shown h)
      enabled := fun q h => 
        Alarms.withPress_enabled (x := { u.alarms.press p with held := false }) id (henabled q h) }
  · have hremove : s.removeEntries p reason l = u := by
      refine (if_neg fun h => hends ?_).trans hu
      rwa [Bool.and_eq_true, Bool.not_eq_true'] at h
    rw [hremove]
    refine ⟨⟨fun h q => ?_, hstripped.shown⟩, henabled⟩
    by_cases hq : q = p
    · subst hq
      have hheld : (s.alarms.press q).held = tableHolds s.au.tables[q] := h q
      rw [hstripped.press, htable, hheld, Bool.eq_iff_iff]
      exact ⟨fun hb => by_contra fun ha => hends ⟨hb, Bool.eq_false_iff.mpr ha⟩, tableHolds_of_without⟩
    · exact hother h q hq

/-! ### Acknowledgements (R191, R192) -/

/-- `b` is `a` with entries of the presses `l` acknowledged, before any pattern follows. -/
structure Alarms.Acked (l : List (Fin 16)) (a b : Alarms) : Prop where
  press : b.press = a.press
  pattern : b.pattern = a.pattern
  holds : ∀ p, tableHolds (b.table p) = tableHolds (a.table p)
  empty : ∀ p, a.table p = emptyTable → b.table p = emptyTable
  other : ∀ p, p ∉ l → b.table p = a.table p

theorem ackTable_holds (t : Vector (Option AlertEntry) 11) : tableHolds (ackTable t) = tableHolds t := by
  refine tableHolds_congr ?_
  simp only [tableEntries, ackTable, Vector.toList_map, List.map_filterMap, List.filterMap_map]
  refine List.filterMap_congr fun o _ => ?_
  cases o <;> rfl

theorem State.ackPress_acked (p : Fin 16) : s.alarms.Acked [p] (s.ackPress p).alarms := by
  have hacked : (s.ackPress p).alarms = s.alarms.wrote p (s.alarms.press p).held (ackTable (s.alarms.table p)) :=
    s.setTable_alarms p _
  have hpress : (s.alarms.withPress p (s.alarms.press p)).press = s.alarms.press :=
    congrArg Alarms.press (s.alarms.withPress_same p)
  rw [hacked]
  refine ⟨hpress, rfl, fun q => ?_, fun q hempty => ?_, fun q hq => ?_⟩
  · by_cases hq : q = p
    · subst hq
      rw [Alarms.wrote_table_self, ackTable_holds]
    · rw [Alarms.wrote_table_other hq]
  · by_cases hq : q = p
    · subst hq
      rw [Alarms.wrote_table_self, hempty, ackTable, emptyTable, Vector.map_replicate]
      rfl
    · rw [Alarms.wrote_table_other hq, hempty]
  · exact Alarms.wrote_table_other fun h => hq (List.mem_singleton.mpr h)

theorem State.foldl_ackPress_acked (l : List (Fin 16)) : s.alarms.Acked l (l.foldl State.ackPress s).alarms := by
  induction l generalizing s with
  | nil => exact ⟨rfl, rfl, fun _ => rfl, fun _ => id, fun _ _ => rfl⟩
  | cons p l ih =>
    have hfirst := s.ackPress_acked p
    have hrest := ih (s.ackPress p)
    exact {
      press := hrest.press.trans hfirst.press
      pattern := hrest.pattern.trans hfirst.pattern
      holds := fun q => (hrest.holds q).trans (hfirst.holds q)
      empty := fun q => hrest.empty q ∘ hfirst.empty q
      other := fun q hq => (hrest.other q fun h => hq (List.mem_cons_of_mem p h)).trans
        (hfirst.other q fun h => hq (List.mem_cons.mpr (.inl (List.mem_singleton.mp h)))) }

/-- An acknowledgement of entries of one zone, whose pattern follows. -/
theorem State.acknowledge_guards {z : Fin 4} {l : List (Fin 16)} (named : Option (Fin 16)) (src : AckSource)
    (hl : ∀ p ∈ l, s.presses[p].profile.zone = z) : s.alarms.Guards (s.acknowledge z l named src).alarms := by
  unfold State.acknowledge
  split
  · exact .refl _
  · have hacked := s.foldl_ackPress_acked l
    have hresting (h : s.alarms.Resting) : (l.foldl State.ackPress s).alarms.Resting := by
      intro p hdis
      rw [hacked.press] at hdis ⊢
      obtain ⟨htable, hwatch⟩ := h p hdis
      exact ⟨hacked.empty p htable, hwatch⟩
    have hentries (w : Fin 4) (hw : w ≠ z) : (l.foldl State.ackPress s).alarms.entries w = s.alarms.entries w := by
      refine List.flatMap_congr fun p _ => ?_
      rw [Alarms.share, Alarms.share, hacked.press]
      split
      · next hzone => rw [hacked.other p fun hp => hw (hzone.symm.trans (hl p hp))]
      · rfl
    dsimp only
    rw [State.notice_alarms, State.mapZone_alarms_same _ rfl, State.derivePattern_alarms]
    refine ⟨⟨fun h p => ?_, fun h => Alarms.derived_shown (hresting h.resting) fun w hw => ?_⟩, fun p h => ?_⟩
    · exact (congrArg (fun f => (f p).held) hacked.press).trans ((h p).trans (hacked.holds p).symm)
    · rw [hacked.pattern, hentries w hw]
      exact h.pattern w
    · rw [Alarms.Enabled, Alarms.derived, hacked.press]
      exact h

theorem State.buttonAt_guards (z : Fin 4) : s.alarms.Guards (s.buttonAt z).alarms := by
  unfold State.buttonAt
  split
  · let u := s.mapZone z fun x => { x with button := .pressed, deadline := none }
    have hu : u.alarms = s.alarms := s.mapZone_alarms_same rfl
    refine hu ▸ u.acknowledge_guards none .button fun p hp => ?_
    exact of_decide_eq_true (List.mem_filter.mp hp).2
  · rw [State.mapZone_alarms_same _ rfl]
    exact .refl _
  · exact .refl _

/-! ### Profiles and links (R64, R68, R189) -/

/-- A press that moves from one zone to another, both of which derive their patterns again. -/
theorem State.moveZone_guards (p : Fin 16) (z : Fin 4) : s.alarms.Guards (s.moveZone p z).alarms := by
  unfold State.moveZone
  dsimp only
  split
  · exact .refl _
  · rw [State.derivePattern_alarms, State.derivePattern_alarms, State.mapPress_alarms]
    exact Alarms.moved_derived_guards

theorem State.checkSilence_guards (p : Fin 16) : s.alarms.Guards (s.checkSilence p).alarms := by
  unfold State.checkSilence
  split
  · split
    · next hdue =>
      simp only [Bool.and_eq_true, decide_eq_true_eq] at hdue
      obtain ⟨⟨honline, -⟩, -⟩ := hdue
      exact s.alert_guards .linkSilent 0 (State.enabled_of_online honline)
    · exact .refl _
  · exact .refl _

/-- A new profile (R64): a DISABLED press has no entries to show, and any other moves with its zones' patterns. -/
theorem State.setProfile_guards (p : Fin 16) (f : Profile) : s.alarms.Guards (s.setProfile p f).alarms := by
  unfold State.setProfile
  split
  · next hoff =>
    rw [State.mapPress_alarms]
    refine Alarms.moved_guards (p := p) (z := f.zone) fun h => ?_
    obtain ⟨hempty, -⟩ := h.resting p (decide_eq_true hoff)
    exact hempty
  · rw [State.bindEvent_alarms]
    refine .trans ?_ (State.moveZone_guards _ p f.zone)
    refine .trans (.of_eq ?_) (State.checkSilence_guards _ p)
    rw [State.mapPress_alarms_same _ rfl, State.mapPress_alarms_same _ rfl]

/-- A press whose link is not DISABLED any more, or was not before. -/
theorem State.linked_guards {p : Fin 16} (f : Press → Press) (hheld : (f s.presses[p]).held = s.presses[p].held)
    (hprofile : (f s.presses[p]).profile = s.presses[p].profile) (hlink : (f s.presses[p]).link ≠ .disabled) :
    s.alarms.Guards (s.mapPress p f).alarms := by
  rw [State.mapPress_alarms]
  exact Alarms.withPress_guards hheld (congrArg Profile.zone hprofile) fun hdis =>
    absurd (of_decide_eq_true hdis) hlink

theorem State.enable_guards (p : Fin 16) : s.alarms.Guards (s.enable p).alarms := by
  rw [State.enable, State.probe_alarms]
  exact s.linked_guards _ rfl rfl nofun

theorem State.linkUp_guards (p : Fin 16) (r : Reported) : s.alarms.Guards (s.linkUp p r).alarms := by
  unfold State.linkUp
  dsimp only
  rw [State.bindEvent_alarms, State.notice_alarms]
  exact s.linked_guards _ rfl rfl nofun

/-- A press that becomes DISABLED is not held, its table is empty and its zone shows it no more (R68, R183). -/
theorem State.disable_passes {p : Fin 16} (hp : s.alarms.Enabled p) : s.alarms.Passes (s.disable p).alarms := by
  have hemptied : (s.emptyTableOf p).alarms = s.alarms.answered p s.presses[p].held emptyTable :=
    s.setTable_handed p emptyTable
  have hdisabled : (s.disable p).alarms = ((s.emptyTableOf p).mapPress p Press.disabled).alarms := by
    unfold State.disable
    dsimp only
    split <;> simp
  have htable : (s.emptyTableOf p).alarms.table p = emptyTable := by
    rw [hemptied]
    exact Alarms.wrote_table_self (held := s.presses[p].held)
  rw [hdisabled, State.mapPress_alarms]
  refine ⟨fun h => Alarms.withPress_holding (by rw [htable, tableHolds_emptyTable]; rfl) fun q hq => ?_, fun h => ?_⟩
  · rw [hemptied, Alarms.answered, Alarms.derived_press, Alarms.derived_table, Alarms.wrote_press_other hq,
      Alarms.wrote_table_other hq]
    exact h q
  · refine Alarms.withPress_shown rfl (fun _ => ⟨htable, rfl⟩) ?_
    rw [hemptied]
    exact Alarms.answered_shown hp h

/-! ### Resets (R184, R195, R208, R209) -/

/-- After a hardware reset every table is empty, no press is held and every pattern is OFF. -/
theorem State.hardReset_laws (cause : ResetCause) (pins : Pins) :
    (s.hardReset cause pins).alarms.Holding ∧ (s.hardReset cause pins).alarms.Shown := by
  refine Alarms.cleared_laws (fun p => ?_) (fun p => ?_) (fun p => ?_) fun z => ?_
  · simp [State.alarms, State.hardReset, State.hardware, Press.fresh, Press.alarm]
  · simp [State.alarms, State.hardReset, State.hardware, Press.fresh, Press.alarm]
  · simp [State.alarms, State.hardReset, State.hardware]
  · match z with
    | 0 | 1 | 2 | 3 => rfl

/-- RESET SOFT of one press ends its hold and its stall watch (R86, R113). -/
theorem State.softResetPress_rests (p : Fin 16) : ∃ x : PressAlarm,
    (s.softResetPress p).alarms = s.alarms.withPress p x ∧ x.held = false ∧ x.watch = none := by
  have hawaiting := (s.stopTx p).mapPress_alarms p fun pr => pr.dispatchReset.toAwaiting
  rw [State.stopTx_alarms] at hawaiting
  unfold State.softResetPress
  split
  · exact ⟨_, s.mapPress_alarms p _, rfl, ite_self _⟩
  · rw [State.probe_alarms, State.send_alarms]
    exact ⟨_, hawaiting, rfl, rfl⟩
  · rw [State.markPending_alarms, State.probe_alarms, State.send_alarms]
    exact ⟨_, hawaiting, rfl, rfl⟩

theorem State.foldl_softResetPress_rests (l : List (Fin 16)) {q : Fin 16}
    (h : q ∈ l ∨ (s.alarms.press q).held = false ∧ (s.alarms.press q).watch = none) :
    ((l.foldl State.softResetPress s).alarms.press q).held = false ∧
      ((l.foldl State.softResetPress s).alarms.press q).watch = none := by
  induction l generalizing s with
  | nil => exact h.resolve_left nofun
  | cons p l ih =>
    obtain ⟨x, hx, hheld, hwatch⟩ := s.softResetPress_rests p
    refine ih _ ?_
    rw [hx, Alarms.withPress]
    by_cases hq : q = p
    · subst hq
      simp only [Function.update_self]
      exact .inr ⟨hheld, hwatch⟩
    · simp only [Function.update_of_ne hq]
      exact h.imp_left fun hmem => (List.mem_cons.mp hmem).resolve_left hq

theorem State.softReset_alarms : s.softReset.alarms =
    { press := ((List.finRange 16).foldl State.softResetPress s).alarms.press
      table := fun _ => emptyTable
      pattern := fun _ => .off } := by
  have htable (p : Fin 16) : (Vector.replicate 16 emptyTable)[p] = emptyTable := by simp
  have hpattern (v : Vector Zone 4) (z : Fin 4) : (v.map Zone.softReset)[z].pattern = .off := by
    simp [Zone.softReset]
  unfold State.softReset
  generalize (List.finRange 16).foldl State.softResetPress s = u
  dsimp only
  rw [State.notice_alarms, State.markAll_alarms]
  exact congrArg₂ (Alarms.mk u.alarms.press) (funext htable) (funext (hpattern u.zones))

theorem State.softReset_laws : s.softReset.alarms.Holding ∧ s.softReset.alarms.Shown := by
  have hrests (p : Fin 16) := s.foldl_softResetPress_rests (List.finRange 16) (.inl (List.mem_finRange p))
  rw [State.softReset_alarms]
  exact Alarms.cleared_laws (fun p => (hrests p).1) (fun p => (hrests p).2) (fun _ => rfl) fun _ => rfl

end

end Sys2Proof.Machine
end

section
/-! The laws of holds and patterns (R170, R187) along every step: what each request and event does to them, and so what
`exec` and `step` do. -/

namespace Sys2Proof.Machine

section
variable (s : State) (body : List Byte)

/-! ### The frames of requests (R2, R197) -/

/-- A request passes the laws on as its owner's answer does. -/
theorem takeRequest_passes (typ tag : Byte) (inScan : Bool) (own : State → Answer)
    (h : s.alarms.Passes (own s).state.alarms) : s.alarms.Passes (takeRequest typ tag inScan own s).alarms := by
  obtain ⟨e, -⟩ | ⟨-, ⟨e, -⟩ | e⟩ := takeRequest_cases typ tag inScan own s
  · rw [e]; exact .of_eq rfl
  · rw [e]; exact .of_eq rfl
  · rw [e]; exact h

theorem longHandleRequest_passes (own : List Byte → Handle → Job → State → Answer)
    (h : ∀ l i j, s.alarms.Passes (own l i j s).state.alarms) :
    s.alarms.Passes (longHandleRequest own body s).state.alarms := by
  unfold longHandleRequest withJob
  split
  · split
    · exact .of_eq rfl
    · split
      · exact .of_eq rfl
      · exact h ..
  · exact .of_eq rfl

theorem handleRequest_passes (own : Handle → Job → State → Answer)
    (h : ∀ i j, s.alarms.Passes (own i j s).state.alarms) :
    s.alarms.Passes (handleRequest body own s).state.alarms := by
  refine longHandleRequest_passes s body _ fun l i j => ?_
  split
  · exact h i j
  · exact .of_eq rfl

theorem pressRequest_passes (own : Fin 16 → State → Answer) (h : ∀ p, s.alarms.Passes (own p s).state.alarms) :
    s.alarms.Passes (pressRequest body own s).state.alarms := by
  unfold pressRequest
  split
  · split
    · exact h _
    · exact .of_eq rfl
  · exact .of_eq rfl

theorem accountRequest_alarms (own : Fin 256 → State → Answer) (h : ∀ n, (own n s).state.alarms = s.alarms) :
    (accountRequest body own s).state.alarms = s.alarms := by
  unfold accountRequest
  repeat' split
  all_goals simp [h]

theorem pressSetRequest_alarms (own : List (Fin 16) → State → Answer) (h : ∀ l, (own l s).state.alarms = s.alarms) :
    (pressSetRequest body own s).state.alarms = s.alarms := by
  unfold pressSetRequest
  split <;> simp [h]

theorem noBody_alarms (own : State → Answer) (h : (own s).state.alarms = s.alarms) :
    (noBody body own s).state.alarms = s.alarms := by
  unfold noBody
  split <;> simp [h]

/-! ### Requests of the link (chapter 11) -/

theorem modeSet_alarms : (modeSet body s).state.alarms = s.alarms := by
  unfold modeSet acceptMode State.toQuiescing
  repeat' split
  all_goals simp

theorem fetchNotices_alarms : (fetchNotices body s).state.alarms = s.alarms := by
  unfold fetchNotices
  repeat' split
  all_goals simp

theorem attnMask_alarms : (attnMask body s).state.alarms = s.alarms := by unfold attnMask; split <;> simp

theorem attnClear_alarms : (attnClear body s).state.alarms = s.alarms := by unfold attnClear; split <;> simp

/-- RESET SOFT, and a RESET HARD that is taken, leave a state that meets both laws whatever the one before. -/
theorem State.reset1_passes (tag : Byte) (pins : Pins) : s.alarms.Passes (s.reset1 tag body pins).alarms := by
  unfold State.reset1
  split
  · obtain ⟨hholding, hshown⟩ := s.hardReset_laws .request pins
    exact ⟨fun _ => hholding, fun _ => hshown⟩
  · refine takeRequest_passes s _ _ _ _ ?_
    split
    · split
      · obtain ⟨hholding, hshown⟩ := s.softReset_laws
        exact ⟨fun _ => hholding, fun _ => hshown⟩
      · exact .of_eq rfl
    · exact .of_eq rfl

/-! ### Job and upload requests (chapters 1 and 2) -/

theorem jobOpen_alarms : (jobOpen body s).state.alarms = s.alarms := by
  have hopen (i : Fin 64) (v : JobOpenValues) (f : Fin 32) (c : Fin 8) : (s.openJob i v f c).alarms = s.alarms := by
    unfold State.openJob
    dsimp only
    split <;> rfl
  unfold jobOpen State.openChecked
  dsimp only
  repeat' split
  all_goals simp [hopen]

theorem sheetBegin_alarms (h : Handle) (j : Job) : (sheetBegin body h j s).state.alarms = s.alarms := by
  unfold sheetBegin State.beginSheet
  repeat' split
  all_goals simp

theorem faceData_alarms (h : Handle) (j : Job) : (faceData body h j s).state.alarms = s.alarms := by
  have hstore (n : Nat) (r : SheetRecord) (chunk : List Byte) : (s.storeFaceData h n j r chunk).alarms = s.alarms := by
    unfold State.storeFaceData State.completeSheet
    dsimp only
    repeat' split
    all_goals simp
  unfold faceData
  repeat' split
  all_goals simp [hstore]

theorem State.closeTest_guards (h : Handle) : s.alarms.Guards (s.closeTest h).alarms := by
  unfold State.closeTest
  split
  · split
    · refine .trans (.of_eq ?_) (State.enterFinal_guards _ h.slot .done none)
      split <;> rfl
    · exact .refl _
  · exact .refl _

theorem jobClose_passes (h : Handle) (j : Job) : s.alarms.Passes (jobClose h j s).state.alarms := by
  have hclose : s.alarms.Guards (s.closeJob h j).alarms := by
    unfold State.closeJob
    split
    · exact .trans (.of_eq (by simp)) (State.closeTest_guards _ h)
    · exact .of_eq rfl
  unfold jobClose
  split
  · exact .of_eq rfl
  · split
    · exact .of_eq rfl
    · split
      · exact .of_eq rfl
      · split
        · exact .of_eq rfl
        · exact hclose.toPasses

theorem jobCancel_passes (h : Handle) (j : Job) : s.alarms.Passes (jobCancel h j s).state.alarms := by
  have hupload (u : State) : (u.cancelUpload h.slot).alarms = u.alarms := u.abandonOpen_alarms h.slot
  have hcancel (u : State) (hu : u.alarms = s.alarms) :
      s.alarms.Passes ((u.cancelUpload h.slot).enterFinal h.slot .cancelled none).alarms :=
    ((Alarms.Guards.of_eq ((hupload u).trans hu)).trans (State.enterFinal_guards ..)).toPasses
  unfold jobCancel
  dsimp only
  split
  · exact hcancel s rfl
  · exact hcancel _ rfl
  · split
    · exact hcancel s rfl
    · exact .of_eq (hupload s)
  · exact .of_eq rfl

theorem jobList_alarms : (jobList body s).state.alarms = s.alarms := by
  unfold jobList
  repeat' split
  all_goals rfl

theorem jobRelease_alarms (h : Handle) (j : Job) : (jobRelease h j s).state.alarms = s.alarms := by
  unfold jobRelease
  split <;> rfl

@[simp] theorem State.returnJob_alarms (h : Handle) (j : Job) : (s.returnJob h j).alarms = s.alarms := rfl

theorem jobRequeue_passes (h : Handle) (j : Job) : s.alarms.Passes (jobRequeue h j s).state.alarms := by
  have hrequeue : s.alarms.Guards (s.requeue h j).alarms := by
    unfold State.requeue
    split
    · exact State.unbind_guards (s.returnJob h j) _
    · exact .of_eq rfl
  unfold jobRequeue
  split
  · exact .of_eq rfl
  · split
    · exact .of_eq rfl
    · split
      · exact .of_eq rfl
      · exact hrequeue.toPasses

/-! ### Filter, class and press requests (chapters 3 to 5) -/

theorem filterSet_alarms : (filterSet body s).state.alarms = s.alarms := by
  unfold filterSet filterWrite
  repeat' split
  all_goals rfl

theorem filterEnable_alarms : (filterEnable body s).state.alarms = s.alarms := by
  unfold filterEnable
  repeat' split
  all_goals rfl

theorem filterQuery_alarms : (filterQuery body s).state.alarms = s.alarms := by
  unfold filterQuery
  repeat' split
  all_goals rfl

theorem classSet_alarms : (classSet body s).state.alarms = s.alarms := by
  unfold classSet classWrite
  repeat' split
  all_goals rfl

theorem classQuery_alarms : (classQuery body s).state.alarms = s.alarms := by
  unfold classQuery
  repeat' split
  all_goals rfl

theorem pressSet_passes : s.alarms.Passes (pressSet body s).state.alarms := by
  unfold pressSet
  split
  · exact .of_eq rfl
  · split
    · exact .of_eq rfl
    · split
      · exact .of_eq rfl
      · split
        · exact .of_eq rfl
        · exact (s.setProfile_guards _ _).toPasses

theorem pressEnable_passes (p : Fin 16) : s.alarms.Passes (pressEnable p s).state.alarms := by
  unfold pressEnable
  split
  · exact .of_eq rfl
  · exact (s.enable_guards p).toPasses

theorem pressDisable_passes (p : Fin 16) : s.alarms.Passes (pressDisable p s).state.alarms := by
  unfold pressDisable
  split
  · exact .of_eq rfl
  · next hon =>
    have hp : s.alarms.Enabled p := State.enabled_iff.mpr hon
    split
    · exact .of_eq rfl
    · split
      · exact s.disable_passes hp
      · next h j _ =>
        split
        · exact State.disable_passes (s.returnJob h j) hp
        · exact .of_eq rfl

theorem pressWriteoff_passes (p : Fin 16) : s.alarms.Passes (pressWriteoff p s).state.alarms := by
  unfold pressWriteoff
  split
  · exact .of_eq rfl
  · exact .of_eq (s.send_alarms p .purge)
  · next honline =>
    split
    · have hafter : (s.writeOff p).alarms = (s.loseAll p s.presses[p].path).alarms := by
        rw [State.writeOff, State.quiesceTest_alarms, State.opportunityIfStill_alarms, State.send_alarms]
      exact Alarms.Passes.trans (s.loseAll_guards _ (State.enabled_of_online honline)).toPasses (.of_eq hafter)
    · exact .of_eq rfl

/-! ### Plan, account, meter and store requests (chapters 6 to 8) -/

theorem planSet_alarms : (planSet body s).state.alarms = s.alarms := by
  unfold planSet
  repeat' split
  all_goals rfl

theorem planQuery_alarms : (planQuery body s).state.alarms = s.alarms := by
  unfold planQuery
  repeat' split
  all_goals rfl

theorem accountOpen_alarms : (accountOpen body s).state.alarms = s.alarms := by
  unfold accountOpen accountOpenAt
  repeat' split
  all_goals rfl

theorem accountSet_alarms : (accountSet body s).state.alarms = s.alarms := by
  unfold accountSet accountSetAt
  dsimp only
  repeat' split
  all_goals simp

theorem accountAdjust_alarms : (accountAdjust body s).state.alarms = s.alarms := by
  unfold accountAdjust accountAdjustAt
  dsimp only
  repeat' split
  all_goals simp

theorem accountQuery_alarms (n : Fin 256) : (accountQuery n s).state.alarms = s.alarms := by
  unfold accountQuery
  split <;> rfl

theorem accountPeriod_alarms (n : Fin 256) : (accountPeriod n s).state.alarms = s.alarms := by
  unfold accountPeriod
  dsimp only
  split <;> rfl

theorem accountClose_alarms (n : Fin 256) : (accountClose n s).state.alarms = s.alarms := by
  unfold accountClose
  dsimp only
  repeat' split
  all_goals rfl

theorem chargeQuote_alarms : (chargeQuote body s).state.alarms = s.alarms := by
  unfold chargeQuote quoteChecked quoteForAccount
  dsimp only
  repeat' split
  all_goals rfl

theorem meterSave_alarms (l : List (Fin 16)) : (meterSave l s).state.alarms = s.alarms := by
  unfold meterSave State.saveMeters
  split <;> simp

/-! ### Alert and zone requests (chapters 9 and 10) -/

/-- A new response mode changes no entry (R168). -/
theorem alertModeSet_alarms : (alertModeSet body s).state.alarms = s.alarms := by
  unfold alertModeSet
  repeat' split
  all_goals rfl

theorem alertList_alarms : (alertList body s).state.alarms = s.alarms := by
  unfold alertList
  repeat' split
  all_goals rfl

theorem alertClear_passes : s.alarms.Passes (alertClear body s).state.alarms := by
  unfold alertClear
  split
  · split
    · exact (s.removeEntries_guards _ .cleared _).toPasses
    · exact .of_eq rfl
  · exact .of_eq rfl

theorem alertAck_passes : s.alarms.Passes (alertAck body s).state.alarms := by
  unfold alertAck
  split
  · split
    · split
      · refine (s.acknowledge_guards _ .host fun p hp => ?_).toPasses
        rw [List.mem_singleton.mp hp]
      · exact .of_eq rfl
    · split
      · split
        · refine (s.acknowledge_guards _ .host fun p hp => ?_).toPasses
          exact of_decide_eq_true (List.mem_filter.mp hp).2
        · exact .of_eq rfl
      · exact .of_eq rfl
  · exact .of_eq rfl

theorem zoneQuery_alarms : (zoneQuery body s).state.alarms = s.alarms := by
  unfold zoneQuery
  repeat' split
  all_goals rfl

/-! ### Frames from a press (chapters 4 and 5) -/

theorem State.heard_guards (p : Fin 16) : s.alarms.Guards (s.heard p).alarms := by
  have hframe : (s.mapPress p fun pr => { pr with lastFrame := some s.tb }).alarms = s.alarms :=
    s.mapPress_alarms_same rfl
  unfold State.heard
  dsimp only
  split
  · exact hframe ▸ State.conditionEnd_guards _ p .linkSilent none
  · exact .of_eq hframe

/-- What an ONLINE press sends. -/
theorem State.onlineFrame_guards (p : Fin 16) (f : State → State)
    (h : ∀ u : State, u.alarms.Enabled p → u.alarms.Guards (f u).alarms) :
    s.alarms.Guards (s.onlineFrame p f).alarms := by
  unfold State.onlineFrame
  split
  · next honline =>
    have hheard := s.heard_guards p
    exact hheard.trans (h _ (hheard.enabled p (State.enabled_of_online honline)))
  · exact .refl _

/-- A restart raises PRESS_RESTART and loses the whole path (R74). -/
theorem State.restart_guards {p : Fin 16} (r : Reported) (hp : s.alarms.Enabled p) :
    s.alarms.Guards (s.restart p r).alarms := by
  unfold State.restart
  extract_lets changed held h path s1 s2 s3 s4 s5
  have h1 : s1.alarms = s.alarms := s.mapPress_alarms_same rfl
  have h2 : s.alarms.Guards s2.alarms := by
    have hraise := s1.alert_guards .pressRestart (if changed then 1 else 0) (h1 ▸ hp)
    rwa [h1] at hraise
  have h5 : s5.alarms = s3.alarms := by
    simp only [s5, s4, State.notice_alarms]
    split <;> simp
  rw [State.quiesceTest_alarms, State.opportunityIfStill_alarms, h5]
  exact h2.trans (s2.loseAll_guards path (h2.enabled p hp))

theorem State.takeHello_guards (p : Fin 16) (r : Reported) : s.alarms.Guards (s.takeHello p r).alarms := by
  unfold State.takeHello
  split
  · exact .refl _
  · exact s.linkUp_guards p r
  · next honline =>
    have hheard := s.heard_guards p
    exact hheard.trans (State.restart_guards _ r (hheard.enabled p (State.enabled_of_online honline)))

theorem State.takeWindow_alarms (p : Fin 16) (w : Byte) : (s.takeWindow p w).alarms = s.alarms := by
  have h (u : State) (a b : Nat) : (u.windowNotice p a b).alarms = u.alarms := by
    unfold State.windowNotice
    split <;> rfl
  have hannounce : (s.mapPress p (Press.announce w)).alarms = s.alarms := s.mapPress_alarms_same rfl
  unfold State.takeWindow
  dsimp only
  split <;> simp [h, hannounce]

theorem State.takeTaken_guards {p : Fin 16} (tag : Half) (hp : s.alarms.Enabled p) :
    s.alarms.Guards (s.takeTaken p tag).alarms := by
  unfold State.takeTaken
  split
  · rw [State.opportunity_alarms]
    exact .of_eq (s.rewatched_alarms _ hp fun _ => ⟨rfl, rfl, rfl⟩)
  · exact s.protocol_guards _ hp

/-- A delivery, and the losses of the entries it skips (R98, R99). -/
theorem State.takeDelivered_guards {p : Fin 16} (tag : Half) (hp : s.alarms.Enabled p) :
    s.alarms.Guards (s.takeDelivered p tag).alarms := by
  have hmisfeed (n : Nat) : s.alarms.Guards (s.misfeed p n).alarms := by
    unfold State.misfeed
    split
    · exact .refl _
    · exact s.alert_guards .misfeed _ hp
  unfold State.takeDelivered
  split
  · exact s.protocol_guards _ hp
  · next older e _ =>
    rw [State.quiesceTest_alarms, State.opportunityIfStill_alarms]
    have hskip := hmisfeed older.length
    have hlost := hskip.trans (State.loseAll_guards _ older (hskip.enabled p hp))
    exact hlost.trans (State.deliverEntry_guards _ e (hlost.enabled p hp))

/-- A fault and the losses it names (R76). -/
theorem State.takeFault_guards {p : Fin 16} (k : AlertKind) (d : Byte) (tags : List Half) (hp : s.alarms.Enabled p) :
    s.alarms.Guards (s.takeFault p k d tags).alarms := by
  have hunknown (u : State) (b : Bool) (hu : u.alarms.Enabled p) : u.alarms.Guards (u.unknownTags p b).alarms := by
    unfold State.unknownTags
    split
    · exact u.protocol_guards _ hu
    · exact .refl _
  have hafter (u : State) (l : List PathEntry) (h : Option Handle) : (u.afterLosses p l h).alarms = u.alarms := by
    unfold State.afterLosses
    split <;> simp
  unfold State.takeFault
  dsimp only
  rw [State.quiesceTest_alarms, hafter]
  have hraise := s.alert_guards k d hp
  have hlost := hraise.trans (State.loseAll_guards _ (s.presses[p].named tags) (hraise.enabled p hp))
  exact hlost.trans (hunknown _ _ (hlost.enabled p hp))

theorem State.badCheck_guards (p : Fin 16) : s.alarms.Guards (s.badCheck p).alarms := by
  have hcounted : (s.mapPress p Press.badCheck).alarms = s.alarms := s.mapPress_alarms_same rfl
  unfold State.badCheck
  split
  · exact .refl _
  · exact .of_eq hcounted
  · next honline =>
    exact hcounted ▸ State.protocol_guards _ .badCheck (hcounted.symm ▸ State.enabled_of_online honline)

/-! ### Timers and reports -/

theorem State.silence_guards {p : Fin 16} (h : s.silenceDue p = true) :
    s.alarms.Guards (s.alert p .linkSilent 0).alarms := by
  simp only [State.silenceDue, Bool.and_eq_true, decide_eq_true_eq] at h
  obtain ⟨⟨honline, -⟩, -⟩ := h
  exact s.alert_guards .linkSilent 0 (State.enabled_of_online honline)

/-- A press whose stall watch is due has one, and is not DISABLED then. -/
theorem State.stallDeadline_guards {p : Fin 16} {tag : Half} (h : s.stallDue p = some tag) :
    s.alarms.Guards (s.raiseStall p tag).alarms := by
  refine s.raiseStall_guards tag fun hshown => State.enabled_iff.mpr fun hoff => ?_
  obtain ⟨hresting, -⟩ := s.zonesSound_iff.mpr hshown
  obtain ⟨-, hwatch⟩ := hresting p hoff
  rw [State.stallDue, hwatch] at h
  cases h

theorem State.unbindExpiry_guards (p : Fin 16) : s.alarms.Guards (s.unbindExpiry p).alarms := by
  unfold State.unbindExpiry
  split
  · next h j _ =>
    split
    · exact State.unbind_guards (s.returnJob h j) p
    · exact .of_eq (s.mapPress_alarms_same rfl)
  · exact .refl _

theorem State.endTransmission_alarms (p : Fin 16) (t : Transmission) : (s.endTransmission p t).alarms = s.alarms := by
  unfold State.endTransmission
  dsimp only
  rw [State.opportunity_alarms, State.mapPress_alarms_same _ rfl, State.send_alarms, State.sendData_alarms]

theorem State.takeQueueEvent_alarms (c : Fin 8) : (s.takeQueueEvent c).alarms = s.alarms :=
  (foldl_alarms (fun s p => s.bindEvent p) (fun s p => s.bindEvent_alarms p) _ _).trans rfl

/-! ### The meter store (chapter 8) -/

theorem execStoreWriteBegin_alarms (t : State) (h : execStoreWriteBegin s = .next t) : t.alarms = s.alarms := by
  have hwear : s.wearOut.alarms = s.alarms := by
    unfold State.wearOut
    split <;> rfl
  unfold execStoreWriteBegin at h
  split at h
  · split at h
    · exact Host.Outcome.next.inj h ▸ hwear
    · split at h
      · exact Host.Outcome.next.inj h ▸ State.advanceWrite_alarms (s.mapStore _)
      · cases h
      · exact Host.Outcome.next.inj h ▸ rfl
  · exact Host.Outcome.next.inj h ▸ rfl

theorem State.completeWrite_alarms (w : WriteOp) : (s.completeWrite w).alarms = s.alarms := by
  unfold State.completeWrite State.saveDone
  split <;> rfl

theorem State.endErase_alarms (k : Fin 4) (residue : List (Nat × Byte)) :
    (s.endErase k residue).alarms = s.alarms := by
  unfold State.endErase State.eraseFailed
  dsimp only
  repeat' split
  all_goals rfl

theorem State.readDone_alarms : s.readDone.alarms = s.alarms := by
  have hload (u : State) : u.loadMeters.alarms = u.alarms := rfl
  unfold State.readDone
  dsimp only
  rw [State.mapStore_alarms, hload, State.mapStore_alarms]

theorem State.endScan_alarms : s.endScan.alarms = s.alarms := by
  unfold State.endScan State.scannedNotice State.storeSettles
  dsimp only
  repeat' split
  all_goals rfl

/-! ### Every command, and every step -/

/-- A command that acts on a condition and passes without effect otherwise (log entry 8). -/
theorem ite_passes {c : Prop} [Decidable c] {u : State} (k : c → s.alarms.Guards u.alarms) :
    s.alarms.Passes (if c then u else s).alarms := by
  split
  · next hc => exact (k hc).toPasses
  · exact .of_eq rfl

/-- The next state of an outcome that is one. -/
theorem passes_of_next {u t : State} (h : (Host.Outcome.next u : Host.Outcome State Fault Refusal) = .next t)
    (k : s.alarms.Passes u.alarms) : s.alarms.Passes t.alarms := Host.Outcome.next.inj h ▸ k

theorem State.hardReset_passes (cause : ResetCause) (pins : Pins) :
    s.alarms.Passes (s.hardReset cause pins).alarms := by
  obtain ⟨hholding, hshown⟩ := s.hardReset_laws cause pins
  exact ⟨fun _ => hholding, fun _ => hshown⟩

/-- Every command passes on the laws of holds and of patterns. -/
theorem exec_passes (c : Instr) (t : State) (h : exec c s = .next t) : s.alarms.Passes t.alarms := by
  have request {typ tag : Byte} {inScan : Bool} {own : State → Answer} (k : s.alarms.Passes (own s).state.alarms) :
      s.alarms.Passes (takeRequest typ tag inScan own s).alarms := takeRequest_passes s typ tag inScan own k
  have frame {p : Fin 16} {f : State → State}
      (k : ∀ u : State, u.alarms.Enabled p → u.alarms.Guards (f u).alarms) :
      s.alarms.Passes (s.onlineFrame p f).alarms := (s.onlineFrame_guards p f k).toPasses
  cases c with
  | powerOnReset pins => exact passes_of_next s h (s.hardReset_passes _ pins)
  | rstPinReset pins => exact passes_of_next s h (s.hardReset_passes _ pins)
  | resetHard tag body pins => exact passes_of_next s h (s.reset1_passes body tag pins)
  | resetSoft tag body => exact passes_of_next s h (s.reset1_passes body tag s.pins)
  | identify tag body => exact passes_of_next s h (request (.of_eq (noBody_alarms s body _ rfl)))
  | status tag body => exact passes_of_next s h (request (.of_eq (noBody_alarms s body _ rfl)))
  | modeSetRun tag body => exact passes_of_next s h (request (.of_eq (modeSet_alarms s body)))
  | modeSetQuiesce tag body => exact passes_of_next s h (request (.of_eq (modeSet_alarms s body)))
  | fetchNotices tag body => exact passes_of_next s h (request (.of_eq (fetchNotices_alarms s body)))
  | attnMask tag body => exact passes_of_next s h (request (.of_eq (attnMask_alarms s body)))
  | attnClear tag body => exact passes_of_next s h (request (.of_eq (attnClear_alarms s body)))
  | jobOpen tag body => exact passes_of_next s h (request (.of_eq (jobOpen_alarms s body)))
  | sheetBegin tag body =>
    refine passes_of_next s h (request (longHandleRequest_passes s body _ fun l i j => ?_))
    exact .of_eq (sheetBegin_alarms s l i j)
  | faceData tag body =>
    refine passes_of_next s h (request (longHandleRequest_passes s body _ fun l i j => ?_))
    exact .of_eq (faceData_alarms s l i j)
  | jobClose tag body => exact passes_of_next s h (request (handleRequest_passes s body _ (jobClose_passes s)))
  | jobCancel tag body => exact passes_of_next s h (request (handleRequest_passes s body _ (jobCancel_passes s)))
  | jobQuery tag body => exact passes_of_next s h (request (handleRequest_passes s body _ fun _ _ => .of_eq rfl))
  | jobList tag body => exact passes_of_next s h (request (.of_eq (jobList_alarms s body)))
  | jobRelease tag body =>
    exact passes_of_next s h (request (handleRequest_passes s body _ fun i j => .of_eq (jobRelease_alarms s i j)))
  | jobRequeue tag body => exact passes_of_next s h (request (handleRequest_passes s body _ (jobRequeue_passes s)))
  | filterSet tag body => exact passes_of_next s h (request (.of_eq (filterSet_alarms s body)))
  | filterEnable tag body => exact passes_of_next s h (request (.of_eq (filterEnable_alarms s body)))
  | filterQuery tag body => exact passes_of_next s h (request (.of_eq (filterQuery_alarms s body)))
  | classSet tag body => exact passes_of_next s h (request (.of_eq (classSet_alarms s body)))
  | classQuery tag body => exact passes_of_next s h (request (.of_eq (classQuery_alarms s body)))
  | pressSet tag body => exact passes_of_next s h (request (pressSet_passes s body))
  | pressEnable tag body => exact passes_of_next s h (request (pressRequest_passes s body _ (pressEnable_passes s)))
  | pressDisable tag body => exact passes_of_next s h (request (pressRequest_passes s body _ (pressDisable_passes s)))
  | pressQuery tag body => exact passes_of_next s h (request (pressRequest_passes s body _ fun _ => .of_eq rfl))
  | pressWriteoff tag body => exact passes_of_next s h (request (pressRequest_passes s body _ (pressWriteoff_passes s)))
  | planSet tag body => exact passes_of_next s h (request (.of_eq (planSet_alarms s body)))
  | planQuery tag body => exact passes_of_next s h (request (.of_eq (planQuery_alarms s body)))
  | accountOpen tag body => exact passes_of_next s h (request (.of_eq (accountOpen_alarms s body)))
  | accountSet tag body => exact passes_of_next s h (request (.of_eq (accountSet_alarms s body)))
  | accountAdjust tag body => exact passes_of_next s h (request (.of_eq (accountAdjust_alarms s body)))
  | accountQuery tag body =>
    exact passes_of_next s h (request (.of_eq (accountRequest_alarms s body _ (accountQuery_alarms s))))
  | accountPeriod tag body =>
    exact passes_of_next s h (request (.of_eq (accountRequest_alarms s body _ (accountPeriod_alarms s))))
  | accountClose tag body =>
    exact passes_of_next s h (request (.of_eq (accountRequest_alarms s body _ (accountClose_alarms s))))
  | chargeQuote tag body => exact passes_of_next s h (request (.of_eq (chargeQuote_alarms s body)))
  | meterRead tag body => exact passes_of_next s h (request (.of_eq (pressSetRequest_alarms s body _ fun _ => rfl)))
  | meterSave tag body =>
    exact passes_of_next s h (request (.of_eq (pressSetRequest_alarms s body _ (meterSave_alarms s))))
  | storeQuery tag body => exact passes_of_next s h (request (.of_eq (noBody_alarms s body _ rfl)))
  | alertModeSet tag body => exact passes_of_next s h (request (.of_eq (alertModeSet_alarms s body)))
  | alertList tag body => exact passes_of_next s h (request (.of_eq (alertList_alarms s body)))
  | alertClear tag body => exact passes_of_next s h (request (alertClear_passes s body))
  | alertAckPress tag body => exact passes_of_next s h (request (alertAck_passes s body))
  | alertAckZone tag body => exact passes_of_next s h (request (alertAck_passes s body))
  | zoneQuery tag body => exact passes_of_next s h (request (.of_eq (zoneQuery_alarms s body)))
  | unknownRequest typ tag body =>
    refine passes_of_next s h ?_
    split
    · exact .of_eq rfl
    · exact takeRequest_passes s typ tag true _ (.of_eq rfl)
  | requestDropped typ tag body => exact passes_of_next s h (ite_passes s fun _ => .of_eq s.dropRequest_alarms)
  | frameBadLength len => exact passes_of_next s h (ite_passes s fun _ => .of_eq rfl)
  | frameBadCheck typ tag body check => exact passes_of_next s h (ite_passes s fun _ => .of_eq rfl)
  | csDeasserted mosi =>
    refine passes_of_next s h ?_
    split <;> exact .of_eq rfl
  | replyClockedOut => exact passes_of_next s h (.of_eq rfl)
  | hello p model serial caps grades win => exact passes_of_next s h (s.takeHello_guards p _).toPasses
  | window p win => exact passes_of_next s h (frame fun u _ => .of_eq (u.takeWindow_alarms p win))
  | taken p tag => exact passes_of_next s h (frame fun u hu => u.takeTaken_guards tag hu)
  | delivered p tag => exact passes_of_next s h (frame fun u hu => u.takeDelivered_guards tag hu)
  | fault p kind detail tags =>
    refine passes_of_next s h (frame fun u hu => ?_)
    split
    · exact u.takeFault_guards _ detail tags hu
    · exact u.protocol_guards _ hu
  | clear p kind detail => exact passes_of_next s h (frame fun u _ => u.conditionEnd_guards p _ _)
  | beat p => exact passes_of_next s h (frame fun u _ => .refl _)
  | feedBadCheck p typ len body check => exact passes_of_next s h (ite_passes s fun _ => s.badCheck_guards p)
  | feedBadFrame p typ body =>
    refine passes_of_next s h (ite_passes s fun _ => s.onlineFrame_guards p _ fun u hu => ?_)
    exact u.protocol_guards _ hu
  | probeTimerExpiry p => exact passes_of_next s h (ite_passes s fun _ => .of_eq (s.probe_alarms p))
  | silenceDeadline p => exact passes_of_next s h (ite_passes s fun hdue => s.silence_guards hdue)
  | stallDeadline p =>
    refine passes_of_next s h ?_
    split
    · next hdue => exact (s.stallDeadline_guards hdue).toPasses
    · exact .of_eq rfl
  | unbindDeadline p => exact passes_of_next s h (ite_passes s fun _ => s.unbindExpiry_guards p)
  | retryDeadline p kind => exact passes_of_next s h (ite_passes s fun _ => s.removeEntries_guards p _ _)
  | transmissionEnd p =>
    refine passes_of_next s h ?_
    split
    · exact .of_eq (s.endTransmission_alarms p _)
    · exact .of_eq rfl
  | queueEvent cls => exact passes_of_next s h (ite_passes s fun _ => .of_eq (s.takeQueueEvent_alarms cls))
  | availabilityRiseReport p account =>
    exact passes_of_next s h (ite_passes s fun _ => .of_eq (State.opportunity_alarms (s.mapMu _) p))
  | ackInputChange zone active =>
    refine passes_of_next s h (.of_eq (State.mapZone_alarms_same { s with pins := setAck zone active s.pins } ?_))
    unfold Zone.level
    split <;> rfl
  | buttonDeadline zone => exact passes_of_next s h (ite_passes s fun _ => s.buttonAt_guards zone)
  | storeWriteBegin => exact .of_eq (execStoreWriteBegin_alarms s t h)
  | storeWriteComplete =>
    refine passes_of_next s h ?_
    split
    · exact .of_eq (s.completeWrite_alarms _)
    · exact .of_eq rfl
  | storeEraseBegin =>
    refine passes_of_next s h ?_
    split
    · exact ite_passes s fun _ => .of_eq rfl
    · exact .of_eq rfl
  | storeEraseEnd residue =>
    refine passes_of_next s h ?_
    split
    · exact .of_eq (s.endErase_alarms _ residue)
    · exact .of_eq rfl
  | scanReadDone => exact passes_of_next s h (ite_passes s fun _ => .of_eq s.readDone_alarms)
  | scanEnd => exact passes_of_next s h (ite_passes s fun _ => .of_eq s.endScan_alarms)

theorem State.tick_alarms : s.tick.alarms = s.alarms := by
  have k := State.advanceWrite_alarms { s with tb := s.tb + 1 }
  unfold State.tick
  extract_lets u
  split
  exact k

/-- Every step passes both laws on, a millisecond of an empty queue included. -/
theorem step_passes (t : State) (h : step s = .next t) : s.alarms.Passes t.alarms := by
  unfold step at h
  split at h
  · exact .of_eq (Host.Outcome.next.inj h ▸ s.tick_alarms)
  · next c rest _ => exact exec_passes { s with pending := rest } c t h

end

/-- Settles O10: an entry that holds comes with the hold, and the last one takes the hold with it. -/
theorem heldExactlyByAlerts : Obligations.HeldExactlyByAlerts := by
  intro s t hs h
  exact t.holdsSound_iff.mpr ((step_passes s t h).holding (s.holdsSound_iff.mp hs))

/-- Settles O11: every change of an entry that a pattern reads, and every move of a press, derives the patterns of its
zones again; a DISABLED press has nothing to raise an entry from. -/
theorem patternsFollowEntries : Obligations.PatternsFollowEntries := by
  intro s t hs h
  exact t.zonesSound_iff.mpr ((step_passes s t h).shown (s.zonesSound_iff.mp hs))

end Sys2Proof.Machine
end
